-- ==== Sys2Proof/Word.lean ====
section
/-! DEFINITION. The word types of the machine (00 R10, R11): every width the spec fixes, under one name each. -/

namespace Sys2Proof

/-- A byte: CPU registers, operand bytes, memory cells (00 R10). -/
abbrev Byte := BitVec 8

/-- A CPU bus address, and `PC` (10 R102, 20 R200). -/
abbrev Addr := BitVec 16

/-- A PPU bus address: 14 bits (20 R210, R213). -/
abbrev PpuAddr := BitVec 14

/-- The PPU's scroll addresses `v` and `t`: 15 bits (10 R120). -/
abbrev VAddr := BitVec 15

/-- A layer pixel `pal : colour`, 2 + 2 bits (10 R132, R133). -/
abbrev Pixel := BitVec 4

/-- A palette entry: 6 bits (10 R131). -/
abbrev Colour := BitVec 6

/-- An output pixel `emphB : emphG : emphR : colour6`: 9 bits (10 R134). -/
abbrev FramePixel := BitVec 9

end Sys2Proof
end

