-- ==== Sys2Proof/Syntax.lean ====
section
/-! DEFINITION. The instructions: one constructor for each of the 151 official rows of the opcode map (30 R320, R321), named by
mnemonic and addressing mode, and one for the 105 ILLEGAL rows, which share one mnemonic, format, cost and rule (30 R322, 45 R558):
its operand is the opcode byte, so its 105 values are the 105 rows. -/

namespace Sys2Proof

/-- The 13 addressing modes (30 R303 to R315). -/
inductive Mode where
  | implied
  | accumulator
  | immediate
  | zeroPage
  | zeroPageX
  | zeroPageY
  | absolute
  | absoluteX
  | absoluteY
  | indirect
  | indirectX
  | indirectY
  | relative
  deriving DecidableEq, Repr

/-- Bytes of an instruction by its mode: formats F1, F2, F3 (30 R300). -/
def Mode.length : Mode → Nat
  | .implied | .accumulator => 1
  | .immediate | .zeroPage | .zeroPageX | .zeroPageY | .indirectX | .indirectY | .relative => 2
  | .absolute | .absoluteX | .absoluteY | .indirect => 3

/-- The instructions. Operands: `v` an immediate byte, `z` a zero-page address, `a` a 16-bit address, `o` a branch offset. -/
inductive Instr where
  -- Loads, stores and transfers (40_load_store_transfer.md)
  | ldaIndX (z : Byte)
  | ldaZp (z : Byte)
  | ldaImm (v : Byte)
  | ldaAbs (a : Addr)
  | ldaIndY (z : Byte)
  | ldaZpX (z : Byte)
  | ldaAbsY (a : Addr)
  | ldaAbsX (a : Addr)
  | ldxImm (v : Byte)
  | ldxZp (z : Byte)
  | ldxAbs (a : Addr)
  | ldxZpY (z : Byte)
  | ldxAbsY (a : Addr)
  | ldyImm (v : Byte)
  | ldyZp (z : Byte)
  | ldyAbs (a : Addr)
  | ldyZpX (z : Byte)
  | ldyAbsX (a : Addr)
  | staIndX (z : Byte)
  | staZp (z : Byte)
  | staAbs (a : Addr)
  | staIndY (z : Byte)
  | staZpX (z : Byte)
  | staAbsY (a : Addr)
  | staAbsX (a : Addr)
  | stxZp (z : Byte)
  | stxAbs (a : Addr)
  | stxZpY (z : Byte)
  | styZp (z : Byte)
  | styAbs (a : Addr)
  | styZpX (z : Byte)
  | tax
  | tay
  | txa
  | tya
  | tsx
  | txs
  -- The stack (41_stack.md)
  | pha
  | php
  | pla
  | plp
  -- Arithmetic, compare, increment, decrement (42_arithmetic.md)
  | adcIndX (z : Byte)
  | adcZp (z : Byte)
  | adcImm (v : Byte)
  | adcAbs (a : Addr)
  | adcIndY (z : Byte)
  | adcZpX (z : Byte)
  | adcAbsY (a : Addr)
  | adcAbsX (a : Addr)
  | sbcIndX (z : Byte)
  | sbcZp (z : Byte)
  | sbcImm (v : Byte)
  | sbcAbs (a : Addr)
  | sbcIndY (z : Byte)
  | sbcZpX (z : Byte)
  | sbcAbsY (a : Addr)
  | sbcAbsX (a : Addr)
  | cmpIndX (z : Byte)
  | cmpZp (z : Byte)
  | cmpImm (v : Byte)
  | cmpAbs (a : Addr)
  | cmpIndY (z : Byte)
  | cmpZpX (z : Byte)
  | cmpAbsY (a : Addr)
  | cmpAbsX (a : Addr)
  | cpxImm (v : Byte)
  | cpxZp (z : Byte)
  | cpxAbs (a : Addr)
  | cpyImm (v : Byte)
  | cpyZp (z : Byte)
  | cpyAbs (a : Addr)
  | incZp (z : Byte)
  | incAbs (a : Addr)
  | incZpX (z : Byte)
  | incAbsX (a : Addr)
  | inx
  | iny
  | decZp (z : Byte)
  | decAbs (a : Addr)
  | decZpX (z : Byte)
  | decAbsX (a : Addr)
  | dex
  | dey
  -- Logic, bit test, shifts and rotates (43_logic_shift.md)
  | andIndX (z : Byte)
  | andZp (z : Byte)
  | andImm (v : Byte)
  | andAbs (a : Addr)
  | andIndY (z : Byte)
  | andZpX (z : Byte)
  | andAbsY (a : Addr)
  | andAbsX (a : Addr)
  | oraIndX (z : Byte)
  | oraZp (z : Byte)
  | oraImm (v : Byte)
  | oraAbs (a : Addr)
  | oraIndY (z : Byte)
  | oraZpX (z : Byte)
  | oraAbsY (a : Addr)
  | oraAbsX (a : Addr)
  | eorIndX (z : Byte)
  | eorZp (z : Byte)
  | eorImm (v : Byte)
  | eorAbs (a : Addr)
  | eorIndY (z : Byte)
  | eorZpX (z : Byte)
  | eorAbsY (a : Addr)
  | eorAbsX (a : Addr)
  | bitZp (z : Byte)
  | bitAbs (a : Addr)
  | aslZp (z : Byte)
  | aslAcc
  | aslAbs (a : Addr)
  | aslZpX (z : Byte)
  | aslAbsX (a : Addr)
  | lsrZp (z : Byte)
  | lsrAcc
  | lsrAbs (a : Addr)
  | lsrZpX (z : Byte)
  | lsrAbsX (a : Addr)
  | rolZp (z : Byte)
  | rolAcc
  | rolAbs (a : Addr)
  | rolZpX (z : Byte)
  | rolAbsX (a : Addr)
  | rorZp (z : Byte)
  | rorAcc
  | rorAbs (a : Addr)
  | rorZpX (z : Byte)
  | rorAbsX (a : Addr)
  -- Control transfer (44_control.md)
  | jmpAbs (a : Addr)
  | jmpInd (a : Addr)
  | jsr (a : Addr)
  | rts
  | rti
  | brk
  | bcc (o : Byte)
  | bcs (o : Byte)
  | beq (o : Byte)
  | bne (o : Byte)
  | bmi (o : Byte)
  | bpl (o : Byte)
  | bvc (o : Byte)
  | bvs (o : Byte)
  -- Flag instructions, NOP, illegal opcodes (45_flags_nop_illegal.md)
  | clc
  | sec
  | cli
  | sei
  | cld
  | sed
  | clv
  | nop
  -- The 105 illegal opcode bytes (30 R322)
  | illegal (op : Byte)
  deriving DecidableEq, Repr

/-- The addressing mode of an instruction (30 R320, R321). -/
def Instr.mode : Instr → Mode
  | .brk | .php | .clc | .plp | .sec | .rti | .pha | .cli | .rts | .pla | .sei | .dey | .txa | .tya | .txs | .tay
  | .tax | .clv | .tsx | .iny | .dex | .cld | .inx | .nop | .sed | .illegal _ => .implied
  | .aslAcc | .rolAcc | .lsrAcc | .rorAcc => .accumulator
  | .oraImm _ | .andImm _ | .eorImm _ | .adcImm _ | .ldyImm _ | .ldxImm _ | .ldaImm _ | .cpyImm _ | .cmpImm _
  | .cpxImm _ | .sbcImm _ => .immediate
  | .oraZp _ | .aslZp _ | .bitZp _ | .andZp _ | .rolZp _ | .eorZp _ | .lsrZp _ | .adcZp _ | .rorZp _ | .styZp _
  | .staZp _ | .stxZp _ | .ldyZp _ | .ldaZp _ | .ldxZp _ | .cpyZp _ | .cmpZp _ | .decZp _ | .cpxZp _ | .sbcZp _
  | .incZp _ => .zeroPage
  | .oraZpX _ | .aslZpX _ | .andZpX _ | .rolZpX _ | .eorZpX _ | .lsrZpX _ | .adcZpX _ | .rorZpX _ | .styZpX _
  | .staZpX _ | .ldyZpX _ | .ldaZpX _ | .cmpZpX _ | .decZpX _ | .sbcZpX _ | .incZpX _ => .zeroPageX
  | .stxZpY _ | .ldxZpY _ => .zeroPageY
  | .oraAbs _ | .aslAbs _ | .jsr _ | .bitAbs _ | .andAbs _ | .rolAbs _ | .jmpAbs _ | .eorAbs _ | .lsrAbs _ | .adcAbs _
  | .rorAbs _ | .styAbs _ | .staAbs _ | .stxAbs _ | .ldyAbs _ | .ldaAbs _ | .ldxAbs _ | .cpyAbs _ | .cmpAbs _
  | .decAbs _ | .cpxAbs _ | .sbcAbs _ | .incAbs _ => .absolute
  | .oraAbsX _ | .aslAbsX _ | .andAbsX _ | .rolAbsX _ | .eorAbsX _ | .lsrAbsX _ | .adcAbsX _ | .rorAbsX _ | .staAbsX _
  | .ldyAbsX _ | .ldaAbsX _ | .cmpAbsX _ | .decAbsX _ | .sbcAbsX _ | .incAbsX _ => .absoluteX
  | .oraAbsY _ | .andAbsY _ | .eorAbsY _ | .adcAbsY _ | .staAbsY _ | .ldaAbsY _ | .ldxAbsY _ | .cmpAbsY _ | .sbcAbsY _ => .absoluteY
  | .jmpInd _ => .indirect
  | .oraIndX _ | .andIndX _ | .eorIndX _ | .adcIndX _ | .staIndX _ | .ldaIndX _ | .cmpIndX _ | .sbcIndX _ => .indirectX
  | .oraIndY _ | .andIndY _ | .eorIndY _ | .adcIndY _ | .staIndY _ | .ldaIndY _ | .cmpIndY _ | .sbcIndY _ => .indirectY
  | .bpl _ | .bmi _ | .bvc _ | .bvs _ | .bcc _ | .bcs _ | .bne _ | .beq _ => .relative

end Sys2Proof
end

