-- ==== Sys2Proof/WellFormed.lean ====
section
/-! DEFINITION. Which instructions are well formed. Operands are typed to their width, so the one check left is that the byte of
`illegal` is one of the 105 illegal opcode bytes (30 R322). -/

namespace Sys2Proof

/-- The 105 illegal opcode bytes, as 30 R322 lists them. -/
def illegalOpcodes : List Byte :=
  [0x02, 0x03, 0x04, 0x07, 0x0B, 0x0C, 0x0F, 0x12, 0x13, 0x14, 0x17, 0x1A, 0x1B, 0x1C]
  ++ [0x1F, 0x22, 0x23, 0x27, 0x2B, 0x2F, 0x32, 0x33, 0x34, 0x37, 0x3A, 0x3B, 0x3C, 0x3F]
  ++ [0x42, 0x43, 0x44, 0x47, 0x4B, 0x4F, 0x52, 0x53, 0x54, 0x57, 0x5A, 0x5B, 0x5C, 0x5F]
  ++ [0x62, 0x63, 0x64, 0x67, 0x6B, 0x6F, 0x72, 0x73, 0x74, 0x77, 0x7A, 0x7B, 0x7C, 0x7F]
  ++ [0x80, 0x82, 0x83, 0x87, 0x89, 0x8B, 0x8F, 0x92, 0x93, 0x97, 0x9B, 0x9C, 0x9E, 0x9F]
  ++ [0xA3, 0xA7, 0xAB, 0xAF, 0xB2, 0xB3, 0xB7, 0xBB, 0xBF, 0xC2, 0xC3, 0xC7, 0xCB, 0xCF]
  ++ [0xD2, 0xD3, 0xD4, 0xD7, 0xDA, 0xDB, 0xDC, 0xDF, 0xE2, 0xE3, 0xE7, 0xEB, 0xEF, 0xF2]
  ++ [0xF3, 0xF4, 0xF7, 0xFA, 0xFB, 0xFC, 0xFF]

/-- Whether an instruction is well formed. -/
def Instr.wf : Instr → Bool
  | .illegal op => illegalOpcodes.contains op
  | .brk | .oraIndX _ | .oraZp _ | .aslZp _ | .php | .oraImm _ | .aslAcc | .oraAbs _ | .aslAbs _ | .bpl _ | .oraIndY _
  | .oraZpX _ | .aslZpX _ | .clc | .oraAbsY _ | .oraAbsX _ | .aslAbsX _ | .jsr _ | .andIndX _ | .bitZp _ | .andZp _
  | .rolZp _ | .plp | .andImm _ | .rolAcc | .bitAbs _ | .andAbs _ | .rolAbs _ | .bmi _ | .andIndY _ | .andZpX _
  | .rolZpX _ | .sec | .andAbsY _ | .andAbsX _ | .rolAbsX _ | .rti | .eorIndX _ | .eorZp _ | .lsrZp _ | .pha
  | .eorImm _ | .lsrAcc | .jmpAbs _ | .eorAbs _ | .lsrAbs _ | .bvc _ | .eorIndY _ | .eorZpX _ | .lsrZpX _ | .cli
  | .eorAbsY _ | .eorAbsX _ | .lsrAbsX _ | .rts | .adcIndX _ | .adcZp _ | .rorZp _ | .pla | .adcImm _ | .rorAcc
  | .jmpInd _ | .adcAbs _ | .rorAbs _ | .bvs _ | .adcIndY _ | .adcZpX _ | .rorZpX _ | .sei | .adcAbsY _ | .adcAbsX _
  | .rorAbsX _ | .staIndX _ | .styZp _ | .staZp _ | .stxZp _ | .dey | .txa | .styAbs _ | .staAbs _ | .stxAbs _ | .bcc _
  | .staIndY _ | .styZpX _ | .staZpX _ | .stxZpY _ | .tya | .staAbsY _ | .txs | .staAbsX _ | .ldyImm _ | .ldaIndX _
  | .ldxImm _ | .ldyZp _ | .ldaZp _ | .ldxZp _ | .tay | .ldaImm _ | .tax | .ldyAbs _ | .ldaAbs _ | .ldxAbs _ | .bcs _
  | .ldaIndY _ | .ldyZpX _ | .ldaZpX _ | .ldxZpY _ | .clv | .ldaAbsY _ | .tsx | .ldyAbsX _ | .ldaAbsX _ | .ldxAbsY _
  | .cpyImm _ | .cmpIndX _ | .cpyZp _ | .cmpZp _ | .decZp _ | .iny | .cmpImm _ | .dex | .cpyAbs _ | .cmpAbs _
  | .decAbs _ | .bne _ | .cmpIndY _ | .cmpZpX _ | .decZpX _ | .cld | .cmpAbsY _ | .cmpAbsX _ | .decAbsX _ | .cpxImm _
  | .sbcIndX _ | .cpxZp _ | .sbcZp _ | .incZp _ | .inx | .sbcImm _ | .nop | .cpxAbs _ | .sbcAbs _ | .incAbs _ | .beq _
  | .sbcIndY _ | .sbcZpX _ | .incZpX _ | .sed | .sbcAbsY _ | .sbcAbsX _ | .incAbsX _ => true

end Sys2Proof
end

