-- ==== Sys2Proof/Decode.lean ====
section
/-! DEFINITION. The decoder, total on any bytes, and the encoder, both from the opcode matrix of 30 R320: rows are the high
nibble of the opcode byte, columns the low one, and a cell without an official opcode is an illegal one (30 R322). -/

namespace Sys2Proof

/-- A 16-bit operand from its bytes, low byte first (30 R300, 20 R220). -/
def operandWord (lo hi : Byte) : Addr := hi ++ lo

/-- Row 0x of the matrix (30 R320). -/
def decodeRow0 (col : Nat) (op b1 b2 : Byte) : Instr :=
  match col with
  | 0x0 => .brk
  | 0x1 => .oraIndX b1
  | 0x5 => .oraZp b1
  | 0x6 => .aslZp b1
  | 0x8 => .php
  | 0x9 => .oraImm b1
  | 0xA => .aslAcc
  | 0xD => .oraAbs (operandWord b1 b2)
  | 0xE => .aslAbs (operandWord b1 b2)
  | _ => .illegal op

/-- Row 1x of the matrix (30 R320). -/
def decodeRow1 (col : Nat) (op b1 b2 : Byte) : Instr :=
  match col with
  | 0x0 => .bpl b1
  | 0x1 => .oraIndY b1
  | 0x5 => .oraZpX b1
  | 0x6 => .aslZpX b1
  | 0x8 => .clc
  | 0x9 => .oraAbsY (operandWord b1 b2)
  | 0xD => .oraAbsX (operandWord b1 b2)
  | 0xE => .aslAbsX (operandWord b1 b2)
  | _ => .illegal op

/-- Row 2x of the matrix (30 R320). -/
def decodeRow2 (col : Nat) (op b1 b2 : Byte) : Instr :=
  match col with
  | 0x0 => .jsr (operandWord b1 b2)
  | 0x1 => .andIndX b1
  | 0x4 => .bitZp b1
  | 0x5 => .andZp b1
  | 0x6 => .rolZp b1
  | 0x8 => .plp
  | 0x9 => .andImm b1
  | 0xA => .rolAcc
  | 0xC => .bitAbs (operandWord b1 b2)
  | 0xD => .andAbs (operandWord b1 b2)
  | 0xE => .rolAbs (operandWord b1 b2)
  | _ => .illegal op

/-- Row 3x of the matrix (30 R320). -/
def decodeRow3 (col : Nat) (op b1 b2 : Byte) : Instr :=
  match col with
  | 0x0 => .bmi b1
  | 0x1 => .andIndY b1
  | 0x5 => .andZpX b1
  | 0x6 => .rolZpX b1
  | 0x8 => .sec
  | 0x9 => .andAbsY (operandWord b1 b2)
  | 0xD => .andAbsX (operandWord b1 b2)
  | 0xE => .rolAbsX (operandWord b1 b2)
  | _ => .illegal op

/-- Row 4x of the matrix (30 R320). -/
def decodeRow4 (col : Nat) (op b1 b2 : Byte) : Instr :=
  match col with
  | 0x0 => .rti
  | 0x1 => .eorIndX b1
  | 0x5 => .eorZp b1
  | 0x6 => .lsrZp b1
  | 0x8 => .pha
  | 0x9 => .eorImm b1
  | 0xA => .lsrAcc
  | 0xC => .jmpAbs (operandWord b1 b2)
  | 0xD => .eorAbs (operandWord b1 b2)
  | 0xE => .lsrAbs (operandWord b1 b2)
  | _ => .illegal op

/-- Row 5x of the matrix (30 R320). -/
def decodeRow5 (col : Nat) (op b1 b2 : Byte) : Instr :=
  match col with
  | 0x0 => .bvc b1
  | 0x1 => .eorIndY b1
  | 0x5 => .eorZpX b1
  | 0x6 => .lsrZpX b1
  | 0x8 => .cli
  | 0x9 => .eorAbsY (operandWord b1 b2)
  | 0xD => .eorAbsX (operandWord b1 b2)
  | 0xE => .lsrAbsX (operandWord b1 b2)
  | _ => .illegal op

/-- Row 6x of the matrix (30 R320). -/
def decodeRow6 (col : Nat) (op b1 b2 : Byte) : Instr :=
  match col with
  | 0x0 => .rts
  | 0x1 => .adcIndX b1
  | 0x5 => .adcZp b1
  | 0x6 => .rorZp b1
  | 0x8 => .pla
  | 0x9 => .adcImm b1
  | 0xA => .rorAcc
  | 0xC => .jmpInd (operandWord b1 b2)
  | 0xD => .adcAbs (operandWord b1 b2)
  | 0xE => .rorAbs (operandWord b1 b2)
  | _ => .illegal op

/-- Row 7x of the matrix (30 R320). -/
def decodeRow7 (col : Nat) (op b1 b2 : Byte) : Instr :=
  match col with
  | 0x0 => .bvs b1
  | 0x1 => .adcIndY b1
  | 0x5 => .adcZpX b1
  | 0x6 => .rorZpX b1
  | 0x8 => .sei
  | 0x9 => .adcAbsY (operandWord b1 b2)
  | 0xD => .adcAbsX (operandWord b1 b2)
  | 0xE => .rorAbsX (operandWord b1 b2)
  | _ => .illegal op

/-- Row 8x of the matrix (30 R320). -/
def decodeRow8 (col : Nat) (op b1 b2 : Byte) : Instr :=
  match col with
  | 0x1 => .staIndX b1
  | 0x4 => .styZp b1
  | 0x5 => .staZp b1
  | 0x6 => .stxZp b1
  | 0x8 => .dey
  | 0xA => .txa
  | 0xC => .styAbs (operandWord b1 b2)
  | 0xD => .staAbs (operandWord b1 b2)
  | 0xE => .stxAbs (operandWord b1 b2)
  | _ => .illegal op

/-- Row 9x of the matrix (30 R320). -/
def decodeRow9 (col : Nat) (op b1 b2 : Byte) : Instr :=
  match col with
  | 0x0 => .bcc b1
  | 0x1 => .staIndY b1
  | 0x4 => .styZpX b1
  | 0x5 => .staZpX b1
  | 0x6 => .stxZpY b1
  | 0x8 => .tya
  | 0x9 => .staAbsY (operandWord b1 b2)
  | 0xA => .txs
  | 0xD => .staAbsX (operandWord b1 b2)
  | _ => .illegal op

/-- Row Ax of the matrix (30 R320). -/
def decodeRowA (col : Nat) (op b1 b2 : Byte) : Instr :=
  match col with
  | 0x0 => .ldyImm b1
  | 0x1 => .ldaIndX b1
  | 0x2 => .ldxImm b1
  | 0x4 => .ldyZp b1
  | 0x5 => .ldaZp b1
  | 0x6 => .ldxZp b1
  | 0x8 => .tay
  | 0x9 => .ldaImm b1
  | 0xA => .tax
  | 0xC => .ldyAbs (operandWord b1 b2)
  | 0xD => .ldaAbs (operandWord b1 b2)
  | 0xE => .ldxAbs (operandWord b1 b2)
  | _ => .illegal op

/-- Row Bx of the matrix (30 R320). -/
def decodeRowB (col : Nat) (op b1 b2 : Byte) : Instr :=
  match col with
  | 0x0 => .bcs b1
  | 0x1 => .ldaIndY b1
  | 0x4 => .ldyZpX b1
  | 0x5 => .ldaZpX b1
  | 0x6 => .ldxZpY b1
  | 0x8 => .clv
  | 0x9 => .ldaAbsY (operandWord b1 b2)
  | 0xA => .tsx
  | 0xC => .ldyAbsX (operandWord b1 b2)
  | 0xD => .ldaAbsX (operandWord b1 b2)
  | 0xE => .ldxAbsY (operandWord b1 b2)
  | _ => .illegal op

/-- Row Cx of the matrix (30 R320). -/
def decodeRowC (col : Nat) (op b1 b2 : Byte) : Instr :=
  match col with
  | 0x0 => .cpyImm b1
  | 0x1 => .cmpIndX b1
  | 0x4 => .cpyZp b1
  | 0x5 => .cmpZp b1
  | 0x6 => .decZp b1
  | 0x8 => .iny
  | 0x9 => .cmpImm b1
  | 0xA => .dex
  | 0xC => .cpyAbs (operandWord b1 b2)
  | 0xD => .cmpAbs (operandWord b1 b2)
  | 0xE => .decAbs (operandWord b1 b2)
  | _ => .illegal op

/-- Row Dx of the matrix (30 R320). -/
def decodeRowD (col : Nat) (op b1 b2 : Byte) : Instr :=
  match col with
  | 0x0 => .bne b1
  | 0x1 => .cmpIndY b1
  | 0x5 => .cmpZpX b1
  | 0x6 => .decZpX b1
  | 0x8 => .cld
  | 0x9 => .cmpAbsY (operandWord b1 b2)
  | 0xD => .cmpAbsX (operandWord b1 b2)
  | 0xE => .decAbsX (operandWord b1 b2)
  | _ => .illegal op

/-- Row Ex of the matrix (30 R320). -/
def decodeRowE (col : Nat) (op b1 b2 : Byte) : Instr :=
  match col with
  | 0x0 => .cpxImm b1
  | 0x1 => .sbcIndX b1
  | 0x4 => .cpxZp b1
  | 0x5 => .sbcZp b1
  | 0x6 => .incZp b1
  | 0x8 => .inx
  | 0x9 => .sbcImm b1
  | 0xA => .nop
  | 0xC => .cpxAbs (operandWord b1 b2)
  | 0xD => .sbcAbs (operandWord b1 b2)
  | 0xE => .incAbs (operandWord b1 b2)
  | _ => .illegal op

/-- Row Fx of the matrix (30 R320). -/
def decodeRowF (col : Nat) (op b1 b2 : Byte) : Instr :=
  match col with
  | 0x0 => .beq b1
  | 0x1 => .sbcIndY b1
  | 0x5 => .sbcZpX b1
  | 0x6 => .incZpX b1
  | 0x8 => .sed
  | 0x9 => .sbcAbsY (operandWord b1 b2)
  | 0xD => .sbcAbsX (operandWord b1 b2)
  | 0xE => .incAbsX (operandWord b1 b2)
  | _ => .illegal op

/-- The instruction whose opcode byte is `op` and whose next two bytes are `b1`, `b2`; a shorter instruction ignores the bytes
it does not have. All 8 bits of the opcode byte are significant and no other bit takes part (30 R301). -/
def decodeOp (op b1 b2 : Byte) : Instr :=
  match op.toNat / 16 with
  | 0x0 => decodeRow0 (op.toNat % 16) op b1 b2
  | 0x1 => decodeRow1 (op.toNat % 16) op b1 b2
  | 0x2 => decodeRow2 (op.toNat % 16) op b1 b2
  | 0x3 => decodeRow3 (op.toNat % 16) op b1 b2
  | 0x4 => decodeRow4 (op.toNat % 16) op b1 b2
  | 0x5 => decodeRow5 (op.toNat % 16) op b1 b2
  | 0x6 => decodeRow6 (op.toNat % 16) op b1 b2
  | 0x7 => decodeRow7 (op.toNat % 16) op b1 b2
  | 0x8 => decodeRow8 (op.toNat % 16) op b1 b2
  | 0x9 => decodeRow9 (op.toNat % 16) op b1 b2
  | 0xA => decodeRowA (op.toNat % 16) op b1 b2
  | 0xB => decodeRowB (op.toNat % 16) op b1 b2
  | 0xC => decodeRowC (op.toNat % 16) op b1 b2
  | 0xD => decodeRowD (op.toNat % 16) op b1 b2
  | 0xE => decodeRowE (op.toNat % 16) op b1 b2
  | _ => decodeRowF (op.toNat % 16) op b1 b2

/-- The length of the instruction with opcode byte `op`: the byte fixes the mode, the mode the length (30 R301). -/
def instrLength (op : Byte) : Nat := (decodeOp op 0 0).mode.length

/-- Why a list of bytes holds no instruction. -/
inductive DecodeError where
  /-- The list is empty: there is no opcode byte. -/
  | noOpcode
  /-- Fewer operand bytes than the opcode byte `op` asks for. -/
  | missingOperand (op : Byte)
  deriving DecidableEq, Repr

/-- Decode the instruction at the head of a list of bytes, with the bytes after it. Total: every byte value is an opcode
(30 R323), so only a list that is too short is rejected, by name. -/
def decode : List Byte → Except DecodeError (Instr × List Byte)
  | [] => .error .noOpcode
  | op :: rest =>
    if rest.length + 1 < instrLength op then .error (.missingOperand op)
    else .ok (decodeOp op (rest.getD 0 0) (rest.getD 1 0), rest.drop (instrLength op - 1))

/-- The bytes of a 16-bit operand, low byte first (30 R300). -/
def wordBytes (a : Addr) : List Byte := [a.setWidth 8, (a >>> 8).setWidth 8]

/-- The bytes of an instruction, opcode first (30 R300, R320). -/
def encode : Instr → List Byte
  | .brk => [0x00#8]
  | .oraIndX z => [0x01#8, z]
  | .oraZp z => [0x05#8, z]
  | .aslZp z => [0x06#8, z]
  | .php => [0x08#8]
  | .oraImm v => [0x09#8, v]
  | .aslAcc => [0x0A#8]
  | .oraAbs a => 0x0D#8 :: wordBytes a
  | .aslAbs a => 0x0E#8 :: wordBytes a
  | .bpl o => [0x10#8, o]
  | .oraIndY z => [0x11#8, z]
  | .oraZpX z => [0x15#8, z]
  | .aslZpX z => [0x16#8, z]
  | .clc => [0x18#8]
  | .oraAbsY a => 0x19#8 :: wordBytes a
  | .oraAbsX a => 0x1D#8 :: wordBytes a
  | .aslAbsX a => 0x1E#8 :: wordBytes a
  | .jsr a => 0x20#8 :: wordBytes a
  | .andIndX z => [0x21#8, z]
  | .bitZp z => [0x24#8, z]
  | .andZp z => [0x25#8, z]
  | .rolZp z => [0x26#8, z]
  | .plp => [0x28#8]
  | .andImm v => [0x29#8, v]
  | .rolAcc => [0x2A#8]
  | .bitAbs a => 0x2C#8 :: wordBytes a
  | .andAbs a => 0x2D#8 :: wordBytes a
  | .rolAbs a => 0x2E#8 :: wordBytes a
  | .bmi o => [0x30#8, o]
  | .andIndY z => [0x31#8, z]
  | .andZpX z => [0x35#8, z]
  | .rolZpX z => [0x36#8, z]
  | .sec => [0x38#8]
  | .andAbsY a => 0x39#8 :: wordBytes a
  | .andAbsX a => 0x3D#8 :: wordBytes a
  | .rolAbsX a => 0x3E#8 :: wordBytes a
  | .rti => [0x40#8]
  | .eorIndX z => [0x41#8, z]
  | .eorZp z => [0x45#8, z]
  | .lsrZp z => [0x46#8, z]
  | .pha => [0x48#8]
  | .eorImm v => [0x49#8, v]
  | .lsrAcc => [0x4A#8]
  | .jmpAbs a => 0x4C#8 :: wordBytes a
  | .eorAbs a => 0x4D#8 :: wordBytes a
  | .lsrAbs a => 0x4E#8 :: wordBytes a
  | .bvc o => [0x50#8, o]
  | .eorIndY z => [0x51#8, z]
  | .eorZpX z => [0x55#8, z]
  | .lsrZpX z => [0x56#8, z]
  | .cli => [0x58#8]
  | .eorAbsY a => 0x59#8 :: wordBytes a
  | .eorAbsX a => 0x5D#8 :: wordBytes a
  | .lsrAbsX a => 0x5E#8 :: wordBytes a
  | .rts => [0x60#8]
  | .adcIndX z => [0x61#8, z]
  | .adcZp z => [0x65#8, z]
  | .rorZp z => [0x66#8, z]
  | .pla => [0x68#8]
  | .adcImm v => [0x69#8, v]
  | .rorAcc => [0x6A#8]
  | .jmpInd a => 0x6C#8 :: wordBytes a
  | .adcAbs a => 0x6D#8 :: wordBytes a
  | .rorAbs a => 0x6E#8 :: wordBytes a
  | .bvs o => [0x70#8, o]
  | .adcIndY z => [0x71#8, z]
  | .adcZpX z => [0x75#8, z]
  | .rorZpX z => [0x76#8, z]
  | .sei => [0x78#8]
  | .adcAbsY a => 0x79#8 :: wordBytes a
  | .adcAbsX a => 0x7D#8 :: wordBytes a
  | .rorAbsX a => 0x7E#8 :: wordBytes a
  | .staIndX z => [0x81#8, z]
  | .styZp z => [0x84#8, z]
  | .staZp z => [0x85#8, z]
  | .stxZp z => [0x86#8, z]
  | .dey => [0x88#8]
  | .txa => [0x8A#8]
  | .styAbs a => 0x8C#8 :: wordBytes a
  | .staAbs a => 0x8D#8 :: wordBytes a
  | .stxAbs a => 0x8E#8 :: wordBytes a
  | .bcc o => [0x90#8, o]
  | .staIndY z => [0x91#8, z]
  | .styZpX z => [0x94#8, z]
  | .staZpX z => [0x95#8, z]
  | .stxZpY z => [0x96#8, z]
  | .tya => [0x98#8]
  | .staAbsY a => 0x99#8 :: wordBytes a
  | .txs => [0x9A#8]
  | .staAbsX a => 0x9D#8 :: wordBytes a
  | .ldyImm v => [0xA0#8, v]
  | .ldaIndX z => [0xA1#8, z]
  | .ldxImm v => [0xA2#8, v]
  | .ldyZp z => [0xA4#8, z]
  | .ldaZp z => [0xA5#8, z]
  | .ldxZp z => [0xA6#8, z]
  | .tay => [0xA8#8]
  | .ldaImm v => [0xA9#8, v]
  | .tax => [0xAA#8]
  | .ldyAbs a => 0xAC#8 :: wordBytes a
  | .ldaAbs a => 0xAD#8 :: wordBytes a
  | .ldxAbs a => 0xAE#8 :: wordBytes a
  | .bcs o => [0xB0#8, o]
  | .ldaIndY z => [0xB1#8, z]
  | .ldyZpX z => [0xB4#8, z]
  | .ldaZpX z => [0xB5#8, z]
  | .ldxZpY z => [0xB6#8, z]
  | .clv => [0xB8#8]
  | .ldaAbsY a => 0xB9#8 :: wordBytes a
  | .tsx => [0xBA#8]
  | .ldyAbsX a => 0xBC#8 :: wordBytes a
  | .ldaAbsX a => 0xBD#8 :: wordBytes a
  | .ldxAbsY a => 0xBE#8 :: wordBytes a
  | .cpyImm v => [0xC0#8, v]
  | .cmpIndX z => [0xC1#8, z]
  | .cpyZp z => [0xC4#8, z]
  | .cmpZp z => [0xC5#8, z]
  | .decZp z => [0xC6#8, z]
  | .iny => [0xC8#8]
  | .cmpImm v => [0xC9#8, v]
  | .dex => [0xCA#8]
  | .cpyAbs a => 0xCC#8 :: wordBytes a
  | .cmpAbs a => 0xCD#8 :: wordBytes a
  | .decAbs a => 0xCE#8 :: wordBytes a
  | .bne o => [0xD0#8, o]
  | .cmpIndY z => [0xD1#8, z]
  | .cmpZpX z => [0xD5#8, z]
  | .decZpX z => [0xD6#8, z]
  | .cld => [0xD8#8]
  | .cmpAbsY a => 0xD9#8 :: wordBytes a
  | .cmpAbsX a => 0xDD#8 :: wordBytes a
  | .decAbsX a => 0xDE#8 :: wordBytes a
  | .cpxImm v => [0xE0#8, v]
  | .sbcIndX z => [0xE1#8, z]
  | .cpxZp z => [0xE4#8, z]
  | .sbcZp z => [0xE5#8, z]
  | .incZp z => [0xE6#8, z]
  | .inx => [0xE8#8]
  | .sbcImm v => [0xE9#8, v]
  | .nop => [0xEA#8]
  | .cpxAbs a => 0xEC#8 :: wordBytes a
  | .sbcAbs a => 0xED#8 :: wordBytes a
  | .incAbs a => 0xEE#8 :: wordBytes a
  | .beq o => [0xF0#8, o]
  | .sbcIndY z => [0xF1#8, z]
  | .sbcZpX z => [0xF5#8, z]
  | .incZpX z => [0xF6#8, z]
  | .sed => [0xF8#8]
  | .sbcAbsY a => 0xF9#8 :: wordBytes a
  | .sbcAbsX a => 0xFD#8 :: wordBytes a
  | .incAbsX a => 0xFE#8 :: wordBytes a
  | .illegal op => [op]

/-- The host's reading of one table row: the instruction this decoder reads from the bytes of `w`, the first byte the least
significant, every bit from `nbits` up taken as 0, up to the longest instruction (three bytes). -/
def tableWordBytes (nbits w : Nat) : List Byte :=
  let v := w % 2 ^ nbits
  [BitVec.ofNat 8 v, BitVec.ofNat 8 (v / 256), BitVec.ofNat 8 (v / 65536)]

@[inherit_doc tableWordBytes]
def decodeTableWord (nbits w : Nat) : Option Instr :=
  match decode (tableWordBytes nbits w) with
  | .ok r => some r.1
  | .error _ => none

end Sys2Proof
end

