-- ==== Sys2Proof/Machine/Table.lean ====
section
/-! DEFINITION. Sparse memories as plain data in ONE canonical form: keys strictly rising, and no entry equal to what an
unlisted key reads as. Every memory of the machine (work RAM, CIRAM, OAM, PRG, CHR, palettes, pixel layers, the picture) is
one of these; the default `d` an unlisted key reads as is an argument, so that each memory names its own (log 14). -/

namespace Sys2Proof.Machine

/-- A sparse memory over cells of type `α`. -/
abbrev Table (α : Type) := List (Nat × α)

/-- Read one cell; an unlisted cell reads as `d`. -/
def Table.read {α : Type} : Table α → α → Nat → α
  | [], d, _ => d
  | (k, v) :: t, d, a => if k = a then v else Table.read t d a

/-- The table without any entry for `a`. -/
def Table.erase {α : Type} : Table α → Nat → Table α
  | [], _ => []
  | (k, v) :: t, a => if k = a then Table.erase t a else (k, v) :: Table.erase t a

/-- The table with an entry for `a` put before the first greater key. -/
def Table.insert {α : Type} : Table α → Nat → α → Table α
  | [], a, x => [(a, x)]
  | (k, v) :: t, a, x => if a < k then (a, x) :: (k, v) :: t else (k, v) :: Table.insert t a x

/-- Write one cell: writing what an unlisted cell reads as removes the entry. -/
def Table.write {α : Type} [DecidableEq α] (t : Table α) (d : α) (a : Nat) (x : α) : Table α :=
  if x = d then t.erase a else (t.erase a).insert a x

/-- The cells `k, k+1, …, k+n-1` with the values `f` gives them, listed where they differ from `d`. -/
def Table.tabulateFrom {α : Type} [DecidableEq α] (d : α) (f : Nat → α) : Nat → Nat → Table α
  | _, 0 => []
  | k, n + 1 => if f k = d then Table.tabulateFrom d f (k + 1) n else (k, f k) :: Table.tabulateFrom d f (k + 1) n

/-- A table of `n` cells from its values. -/
def Table.tabulate {α : Type} [DecidableEq α] (d : α) (n : Nat) (f : Nat → α) : Table α :=
  Table.tabulateFrom d f 0 n

/-- The canonical table that agrees with `t` on the cells `0 … n-1` and lists no other. -/
def Table.clip {α : Type} [DecidableEq α] (d : α) (n : Nat) : Table α → Table α
  | [] => []
  | (k, v) :: t => if k < n then (Table.clip d n t).write d k v else Table.clip d n t

/-- Canonical from key `lo` on: keys strictly rising, below `n`, no entry equal to `d`. -/
def Table.wfFrom {α : Type} [DecidableEq α] (d : α) (n : Nat) : Nat → Table α → Bool
  | _, [] => true
  | lo, (k, v) :: t => decide (lo ≤ k) && decide (k < n) && decide (v ≠ d) && Table.wfFrom d n (k + 1) t

/-- The canonical form of a table of `n` cells. -/
def Table.wf {α : Type} [DecidableEq α] (d : α) (n : Nat) (t : Table α) : Bool := Table.wfFrom d n 0 t

/-- A memory of bytes: a list of the interface's cells. An unlisted byte reads as 0 (RAM_INIT's default, 00 R9) in every one
but the secondary OAM, whose default is 0xFF (10 R151). -/
abbrev Memory := List Host.Cell

/-- The canonical form of a memory of `size` bytes whose unlisted bytes read as 0. -/
def Memory.wf (size : Nat) (m : Memory) : Bool := Table.wf (0 : Byte) size m

end Sys2Proof.Machine
end

