-- ==== Sys2Proof/Config.lean ====
section
/-! DEFINITION. What an implementation fixes: the parameters of 00 R9, and the collaborators' answers the spec leaves to them.
A parameter is plain data in State (log 3). A collaborator that is not one of the spec's own (20 R238, 00 R9) is a state
machine of which nothing is known: its state is a natural number and its functions are the opaque constants below, with no
body, so that a statement holds whatever they are (log 4). -/

namespace Sys2Proof

/-- The timing-mode flag (00 R9, 92 D36). -/
inductive TvMode where
  | ntsc
  | pal
  deriving DecidableEq, Repr

/-- What an opcode outside the 151 official ones does (00 R9, 92 D6). -/
inductive IllegalPolicy where
  | reset
  | fault
  deriving DecidableEq, Repr

/-- The parameters of 00 R9 that are not collaborators. The palette part of PPU_MEM_INIT is the 32 bytes at the palette
addresses 0x3F00 to 0x3F1F (log 13). -/
structure Params where
  tvMode : TvMode
  illegalPolicy : IllegalPolicy
  intEntrySetsI : Bool
  resetPushesP : Bool
  ramInit : Machine.Memory
  ciramInit : Machine.Memory
  oamInit : Machine.Memory
  paletteInit : Machine.Memory
  deriving DecidableEq, Repr

/-- The defaults of 00 R9. -/
def Params.default : Params where
  tvMode := .ntsc
  illegalPolicy := .reset
  intEntrySetsI := false
  resetPushesP := true
  ramInit := []
  ciramInit := []
  oamInit := []
  paletteInit := []

/-- `Cart.cpuRead` of an unknown cartridge (20 R230): the byte and the cartridge's next state. -/
opaque Config.cartCpuRead : Nat → Addr → Byte × Nat
/-- `Cart.cpuWrite` of an unknown cartridge (20 R230). -/
opaque Config.cartCpuWrite : Nat → Addr → Byte → Nat
/-- `Cart.ppuRead` of an unknown cartridge (20 R230). -/
opaque Config.cartPpuRead : Nat → PpuAddr → Byte × Nat
/-- `Cart.ppuWrite` of an unknown cartridge (20 R230). -/
opaque Config.cartPpuWrite : Nat → PpuAddr → Byte → Nat
/-- `Cart.ciramA10` of an unknown cartridge (20 R211). -/
opaque Config.cartCiramA10 : Nat → PpuAddr → Bool × Nat
/-- `Cart.ciramEnabled` of an unknown cartridge (20 R211). -/
opaque Config.cartCiramEnabled : Nat → PpuAddr → Bool × Nat
/-- `Apu.readRegister` of an unknown audio unit (20 R233). -/
opaque Config.apuRead : Nat → Addr → Byte × Nat
/-- `Apu.writeRegister` of an unknown audio unit (20 R233). -/
opaque Config.apuWrite : Nat → Addr → Byte → Nat
/-- `Apu.doCycles` of an unknown audio unit (20 R233). -/
opaque Config.apuCycles : Nat → Nat → Nat
/-- `Pad.read` of an unknown controller (20 R235). -/
opaque Config.padRead : Nat → Byte × Nat
/-- `Pad.write` of an unknown controller (20 R235). -/
opaque Config.padWrite : Nat → Byte → Nat

end Sys2Proof
end

