-- ==== Sys2Proof/Machine/Collaborators.lean ====
section
/-! DEFINITION. The blocks outside the core behind their interfaces (20 R230 to R238): cartridge, audio unit, controllers.
Each is the spec's own default or an unknown one (Config's opaque functions, log 4); every function is total (20 R207). -/

namespace Sys2Proof.Machine

/-- `MIRROR` of the reference cartridge (20 R238). -/
inductive Mirroring where
  | horizontal
  | vertical
  deriving DecidableEq, Repr

/-- The reference cartridge (20 R238): PRG-ROM of 0x8000 bytes, CHR-RAM of 0x2000 bytes, mirroring. -/
structure RefCart where
  prg : Memory
  chr : Memory
  mirror : Mirroring
  deriving DecidableEq, Repr

/-- A cartridge (20 R230): the reference one, or an unknown one in some state of its own. -/
inductive Cart where
  | reference (c : RefCart)
  | external (st : Nat)
  deriving DecidableEq, Repr

/-- `Cart.cpuRead` (20 R230, R238). -/
def Cart.cpuRead (c : Cart) (a : Addr) : Byte × Cart :=
  match c with
  | .reference r => (if 0x8000 ≤ a.toNat then Table.read r.prg 0 (a.toNat - 0x8000) else 0, .reference r)
  | .external st => ((Config.cartCpuRead st a).1, .external (Config.cartCpuRead st a).2)

/-- `Cart.cpuWrite` (20 R230, R238): the reference cartridge drops it. -/
def Cart.cpuWrite (c : Cart) (a : Addr) (d : Byte) : Cart :=
  match c with
  | .reference r => .reference r
  | .external st => .external (Config.cartCpuWrite st a d)

/-- `Cart.ppuRead` (20 R230, R238). -/
def Cart.ppuRead (c : Cart) (a : PpuAddr) : Byte × Cart :=
  match c with
  | .reference r => (Table.read r.chr 0 (a.toNat % 0x2000), .reference r)
  | .external st => ((Config.cartPpuRead st a).1, .external (Config.cartPpuRead st a).2)

/-- `Cart.ppuWrite` (20 R230, R238). -/
def Cart.ppuWrite (c : Cart) (a : PpuAddr) (d : Byte) : Cart :=
  match c with
  | .reference r => .reference { r with chr := Table.write r.chr 0 (a.toNat % 0x2000) d }
  | .external st => .external (Config.cartPpuWrite st a d)

/-- `Cart.ciramEnabled` (20 R211, R238): true selects CIRAM. -/
def Cart.ciramEnabled (c : Cart) (a : PpuAddr) : Bool × Cart :=
  match c with
  | .reference r => (decide (0x2000 ≤ a.toNat), .reference r)
  | .external st => ((Config.cartCiramEnabled st a).1, .external (Config.cartCiramEnabled st a).2)

/-- `Cart.ciramA10` (20 R211, R238): which 1 KiB CIRAM bank answers. -/
def Cart.ciramA10 (c : Cart) (a : PpuAddr) : Bool × Cart :=
  match c with
  | .reference r => (match r.mirror with | .vertical => a.getLsbD 10 | .horizontal => a.getLsbD 11, .reference r)
  | .external st => ((Config.cartCiramA10 st a).1, .external (Config.cartCiramA10 st a).2)

/-- The audio unit (20 R233): the default of 00 R9 (reads 0, ignores writes), or an unknown one. -/
inductive Apu where
  | silent
  | external (st : Nat)
  deriving DecidableEq, Repr

/-- `Apu.readRegister` (20 R233). -/
def Apu.readRegister (u : Apu) (a : Addr) : Byte × Apu :=
  match u with
  | .silent => (0, .silent)
  | .external st => ((Config.apuRead st a).1, .external (Config.apuRead st a).2)

/-- `Apu.writeRegister` (20 R233). -/
def Apu.writeRegister (u : Apu) (a : Addr) (d : Byte) : Apu :=
  match u with
  | .silent => .silent
  | .external st => .external (Config.apuWrite st a d)

/-- `Apu.doCycles` (20 R233): the unit advances by `n` CPU cycles; no core state changes. -/
def Apu.doCycles (u : Apu) (n : Nat) : Apu :=
  match u with
  | .silent => .silent
  | .external st => .external (Config.apuCycles st n)

/-- A controller port (20 R235): the default of 00 R9 (reads 0, ignores writes), or an unknown controller. -/
inductive Pad where
  | absent
  | external (st : Nat)
  deriving DecidableEq, Repr

/-- `Pad.read` (20 R235). -/
def Pad.read (p : Pad) : Byte × Pad :=
  match p with
  | .absent => (0, .absent)
  | .external st => ((Config.padRead st).1, .external (Config.padRead st).2)

/-- `Pad.write` (20 R235). -/
def Pad.write (p : Pad) (d : Byte) : Pad :=
  match p with
  | .absent => .absent
  | .external st => .external (Config.padWrite st d)

end Sys2Proof.Machine
end

