-- ==== Sys2Proof/Machine/State.lean ====
section
/-! DEFINITION. The machine's whole state as plain data (10_state.md), the reasons a step can stop, and the state after power
on. Field by field it is the list under '## State' of INVENTORY.md. -/

namespace Sys2Proof.Machine

/-- The six stored flags of `P` (10 R103, R105). Bits 4 and 5 of the register are hard-wired to 1 (10 R104) and so are no
storage; `Status.toByte` (Flags.lean) is the register as a byte (log 11). -/
structure Status where
  n : Bool
  v : Bool
  d : Bool
  i : Bool
  z : Bool
  c : Bool
  deriving DecidableEq, Repr

/-- The picture: rows of pixels, each row a sparse table of 9-bit pixels (10 R134). -/
abbrev Picture := Table (Table FramePixel)

/-- The PPU's state (10 R120 to R134). -/
structure Ppu where
  v : VAddr
  t : VAddr
  x : BitVec 3
  w : Bool
  ctrl : Byte
  mask : Byte
  vblank : Bool
  sprite0Hit : Bool
  spriteOverflow : Bool
  oamAddr : Byte
  readBuf : Byte
  renderingEnabled : Bool
  ciram : Memory
  oam : Memory
  sec : Table Byte
  secCount : Nat
  sprite0InSec : Bool
  bgPal : Table Colour
  sprPal : Table Colour
  bgBuf : Table Pixel
  layerBehind : Table Pixel
  layerSpr0 : Table Pixel
  layerFront : Table Pixel
  frame : Picture
  deriving DecidableEq, Repr

/-- What the host or the environment does between two machine steps (20 R237, 60 R806, R812): let one step pass, request an
IRQ, call `reset()`, call `powerOn()`. -/
inductive HostCall where
  | step
  | irq
  | reset
  | powerOn
  deriving DecidableEq, Repr

/-- The state of the machine: CPU (10 R100 to R108), PPU, Scheduler (10 R140), the collaborators' own state, the environment's
coming calls, the output to the video sink, and the parameters. -/
structure State where
  a : Byte
  x : Byte
  y : Byte
  sp : Byte
  pc : Addr
  p : Status
  cycle : Nat
  cycleOffset6 : Nat
  ram : Memory
  ppu : Ppu
  scanline : Nat
  pos : Nat
  frameCount : Nat
  cart : Cart
  apu : Apu
  pad0 : Pad
  pad1 : Pad
  framesDone : Nat
  lastFrame : Picture
  agenda : List HostCall
  params : Params
  deriving DecidableEq, Repr

/-- Why a run stops. -/
inductive Fault where
  /-- Raised by the ILLEGAL instruction under ILLEGAL_POLICY = fault (60 R815), with the opcode byte; terminal. Safe: it is the
  spec's own terminal state, and a claim about a run that reaches it can only become unprovable. -/
  | illegalOpcode (op : Byte)
  deriving DecidableEq, Repr

/-- Why an instruction has no meaning. -/
inductive Refusal where
  /-- Raised only by an arm of exec whose instruction has no meaning yet; no arm does in this model. Safe: the run stops. -/
  | notModelled (mnemonic : String)
  deriving DecidableEq, Repr

/-- An outcome of this machine. -/
abbrev Result := Host.Outcome State Fault Refusal

/-- The PPU at power on (10 R151): the spec's choice D35, the memories from PPU_MEM_INIT (log 13). -/
def Ppu.powerOn (q : Params) : Ppu where
  v := 0
  t := 0
  x := 0
  w := false
  ctrl := 0
  mask := 0
  vblank := false
  sprite0Hit := false
  spriteOverflow := false
  oamAddr := 0
  readBuf := 0
  renderingEnabled := false
  ciram := Table.clip 0 0x800 q.ciramInit
  oam := Table.clip 0 0x100 q.oamInit
  sec := []
  secCount := 0
  sprite0InSec := false
  bgPal := Table.tabulate 0 16 fun k => (Table.read q.paletteInit 0 k).setWidth 6
  sprPal := Table.tabulate 0 16 fun k => if k % 4 = 0 then 0 else (Table.read q.paletteInit 0 (16 + k)).setWidth 6
  bgBuf := []
  layerBehind := []
  layerSpr0 := []
  layerFront := []
  frame := []

/-- `powerOn()` of the core (10 R150 to R152, 70 R903): PPU, then CPU with `PC` from the reset vector (low byte first, 20 R208),
then Scheduler. The two vector reads are the only bus accesses. The collaborators keep their own state (10 R154). -/
def State.powerOn (q : Params) (cart : Cart) (apu : Apu) (pad0 pad1 : Pad) : State :=
  let lo := cart.cpuRead 0xFFFC#16
  let hi := lo.2.cpuRead 0xFFFD#16
  { a := 0, x := 0, y := 0
    sp := 0xFD#8
    pc := hi.1 ++ lo.1
    p := { n := false, v := false, d := false, i := true, z := false, c := false }
    cycle := 0
    cycleOffset6 := 0
    ram := Table.clip 0 0x800 q.ramInit
    ppu := Ppu.powerOn q
    scanline := 0, pos := 0, frameCount := 0
    cart := hi.2, apu := apu, pad0 := pad0, pad1 := pad1
    framesDone := 0, lastFrame := []
    agenda := []
    params := q }

/-- The cartridge of the reset state: the reference cartridge (20 R238) with every PRG and CHR byte 0, vertical (log 5). -/
def Cart.blank : Cart := .reference { prg := [], chr := [], mirror := .vertical }

/-- The machine right after reset: power on with the defaults of 00 R9 (log 5, log 6). -/
def State.reset : State := State.powerOn Params.default Cart.blank .silent .absent .absent

end Sys2Proof.Machine
end

