-- ==== Sys2Proof/Machine/Flags.lean ====
section
/-! DEFINITION. The status register as a byte and every flag computation of the CPU (10 R103, R104, R112, R113; 42 R451, R454;
43 R484 to R487). -/

namespace Sys2Proof.Machine

/-- `P` as a byte (10 R103): C 0, Z 1, I 2, D 3, bits 4 and 5 fixed at 1 (10 R104), V 6, N 7. -/
def Status.toByte (p : Status) : Byte :=
  BitVec.ofBool p.n ++ BitVec.ofBool p.v ++ 0b11#2 ++ BitVec.ofBool p.d ++ BitVec.ofBool p.i ++ BitVec.ofBool p.z
    ++ BitVec.ofBool p.c

/-- A write of the whole of `P` (PLP, RTI): `b | 0x30`, bits 4 and 5 of `b` ignored (10 R104, 41 R437, 44 R513). -/
def Status.ofByte (b : Byte) : Status where
  n := b.getLsbD 7
  v := b.getLsbD 6
  d := b.getLsbD 3
  i := b.getLsbD 2
  z := b.getLsbD 1
  c := b.getLsbD 0

/-- The copy of `P` an interrupt entry pushes: `(P & 0xEF) | 0x20`, B clear (60 R800). -/
def Status.pushedByEntry (p : Status) : Byte := (p.toByte &&& 0xEF#8) ||| 0x20#8

/-- The copy of `P` that PHP and BRK push: `P | 0x30`, B set (10 R104, 41 R435, 44 R514). -/
def Status.pushedByInstr (p : Status) : Byte := p.toByte ||| 0x30#8

/-- `setZN(b)` (10 R112). -/
def Status.setZN (p : Status) (b : Byte) : Status := { p with z := b == 0#8, n := b.getLsbD 7 }

/-- The byte of `alu(raw)` (10 R113). -/
def aluByte (raw : Nat) : Byte := BitVec.ofNat 8 raw

/-- The flags of `alu(raw)`: C from the raw value above 0xFF, Z and N from the byte (10 R113). -/
def Status.alu (p : Status) (raw : Nat) : Status := { p.setZN (aluByte raw) with c := decide (0xFF < raw) }

/-- The raw sum of `addc(M)` (42 R451). -/
def addRaw (a m : Byte) (c : Bool) : Nat := a.toNat + m.toNat + c.toNat

/-- The flags of `addc(M)`: V by the sign comparison, the rest by `alu` (42 R451). -/
def Status.addc (p : Status) (a m : Byte) : Status :=
  let raw := addRaw a m p.c
  let result := aluByte raw
  { p.alu raw with v := ((m ^^^ result) &&& (a ^^^ result)).getLsbD 7 }

/-- The flags of `compare(R, M)` (42 R454). -/
def Status.compare (p : Status) (r m : Byte) : Status := p.alu (r.toNat + (0xFF - m.toNat) + 1)

/-- The flags of BIT (43 R483). -/
def Status.bitTest (p : Status) (a m : Byte) : Status :=
  { p with z := (a &&& m) == 0#8, n := m.getLsbD 7, v := m.getLsbD 6 }

/-- A read-modify-write operation: the new byte and the flags after it, from the old byte and the flags before it. -/
abbrev Modify := Byte → Status → Byte × Status

/-- ASL (43 R484). -/
def aslOp : Modify := fun old p =>
  let raw := old.toNat <<< 1
  (aluByte raw, p.alu raw)

/-- LSR (43 R485). -/
def lsrOp : Modify := fun old p =>
  let result := old >>> 1
  (result, { p.setZN result with c := old.getLsbD 0 })

/-- ROL (43 R486). -/
def rolOp : Modify := fun old p =>
  let raw := old.toNat <<< 1 ||| p.c.toNat
  (aluByte raw, p.alu raw)

/-- ROR (43 R487). -/
def rorOp : Modify := fun old p =>
  let result := old >>> 1 ||| (BitVec.ofBool p.c).setWidth 8 <<< 7
  (result, { p.setZN result with c := old.getLsbD 0 })

/-- INC (42 R458). -/
def incOp : Modify := fun old p => (old + 1, p.setZN (old + 1))

/-- DEC (42 R461). -/
def decOp : Modify := fun old p => (old - 1, p.setZN (old - 1))

end Sys2Proof.Machine
end

