-- ==== Sys2Proof/Machine/PpuBus.lean ====
section
/-! DEFINITION. The fields of the PPU's registers (10 R122, R123) and the PPU bus (20 R210 to R216). -/

namespace Sys2Proof.Machine

/-- `addrInc` (10 R122). -/
def Ppu.addrInc (p : Ppu) : VAddr := if p.ctrl.getLsbD 2 then 32 else 1
/-- `sprPatBase` (10 R122). -/
def Ppu.sprPatBase (p : Ppu) : PpuAddr := if p.ctrl.getLsbD 3 then 0x1000 else 0
/-- `bgPatBase` (10 R122). -/
def Ppu.bgPatBase (p : Ppu) : PpuAddr := if p.ctrl.getLsbD 4 then 0x1000 else 0
/-- `spr8x16` (10 R122). -/
def Ppu.spr8x16 (p : Ppu) : Bool := p.ctrl.getLsbD 5
/-- `nmiEnable` (10 R122). -/
def Ppu.nmiEnable (p : Ppu) : Bool := p.ctrl.getLsbD 7
/-- `grayscale` (10 R123). -/
def Ppu.grayscale (p : Ppu) : Bool := p.mask.getLsbD 0
/-- `showBgLeft` (10 R123). -/
def Ppu.showBgLeft (p : Ppu) : Bool := p.mask.getLsbD 1
/-- `showSprLeft` (10 R123). -/
def Ppu.showSprLeft (p : Ppu) : Bool := p.mask.getLsbD 2
/-- `showBg` (10 R123). -/
def Ppu.showBg (p : Ppu) : Bool := p.mask.getLsbD 3
/-- `showSpr` (10 R123). -/
def Ppu.showSpr (p : Ppu) : Bool := p.mask.getLsbD 4
/-- `emphR`: bit 5 on NTSC, bit 6 on PAL (10 R123). -/
def Ppu.emphR (p : Ppu) (m : TvMode) : Bool := match m with | .ntsc => p.mask.getLsbD 5 | .pal => p.mask.getLsbD 6
/-- `emphG`: bit 6 on NTSC, bit 5 on PAL (10 R123). -/
def Ppu.emphG (p : Ppu) (m : TvMode) : Bool := match m with | .ntsc => p.mask.getLsbD 6 | .pal => p.mask.getLsbD 5
/-- `emphB` (10 R123). -/
def Ppu.emphB (p : Ppu) : Bool := p.mask.getLsbD 7

/-- Whether the palette address selects a `bgPal` cell (20 R216): the low half, and entries 0, 4, 8, 12 of the high half. -/
def palIsBg (a : PpuAddr) : Bool := decide (a.toNat % 32 < 16) || decide (a.toNat % 4 = 0)

/-- A read of the palette cell `palIndex(a)` (20 R216). -/
def Ppu.paletteRead (p : Ppu) (a : PpuAddr) : Colour :=
  if palIsBg a then Table.read p.bgPal 0 (a.toNat % 16) else Table.read p.sprPal 0 (a.toNat % 16)

/-- A write of the palette cell `palIndex(a)`: `d & 0x3F` (20 R215, R216). -/
def Ppu.paletteWrite (p : Ppu) (a : PpuAddr) (d : Byte) : Ppu :=
  if palIsBg a then { p with bgPal := Table.write p.bgPal 0 (a.toNat % 16) (d.setWidth 6) }
  else { p with sprPal := Table.write p.sprPal 0 (a.toNat % 16) (d.setWidth 6) }

/-- The CIRAM index of a PPU address in the bank the cartridge selects (20 R211). -/
def ciramIndex (bank : Bool) (a : PpuAddr) : Nat := (if bank then 0x400 else 0) + a.toNat % 0x400

/-- `PpuReadUnder(a)` (20 R214): CIRAM or cartridge, as the cartridge's queries say. -/
def State.ppuReadUnder (s : State) (a : PpuAddr) : Byte × State :=
  let en := s.cart.ciramEnabled a
  if en.1 then
    let bank := en.2.ciramA10 a
    (Table.read s.ppu.ciram 0 (ciramIndex bank.1 a), { s with cart := bank.2 })
  else
    let r := en.2.ppuRead a
    (r.1, { s with cart := r.2 })

/-- `PpuRead(a)` (20 R214): palette cells read as 6 bits, bits 7 and 6 zero (20 R216). -/
def State.ppuRead (s : State) (a : PpuAddr) : Byte × State :=
  if 0x3F00 ≤ a.toNat then ((s.ppu.paletteRead a).setWidth 8, s) else s.ppuReadUnder a

/-- `PpuWrite(a, d)` (20 R215). -/
def State.ppuWrite (s : State) (a : PpuAddr) (d : Byte) : State :=
  if 0x3F00 ≤ a.toNat then { s with ppu := s.ppu.paletteWrite a d }
  else
    let en := s.cart.ciramEnabled a
    if en.1 then
      let bank := en.2.ciramA10 a
      { s with cart := bank.2, ppu := { s.ppu with ciram := Table.write s.ppu.ciram 0 (ciramIndex bank.1 a) d } }
    else { s with cart := en.2.ppuWrite a d }

end Sys2Proof.Machine
end

