-- ==== Sys2Proof/Machine/PpuRegs.lean ====
section
/-! DEFINITION. The eight PPU registers as the CPU reads and writes them (46 R600 to R612). -/

namespace Sys2Proof.Machine

/-- The status byte (46 R604): vblank, sprite0Hit, spriteOverflow in bits 7, 6, 5, the rest 0. -/
def Ppu.statusByte (p : Ppu) : Byte :=
  BitVec.ofBool p.vblank ++ BitVec.ofBool p.sprite0Hit ++ BitVec.ofBool p.spriteOverflow ++ 0#5

/-- Read $2002 (46 R604). -/
def State.readStatus (s : State) : Byte × State :=
  (s.ppu.statusByte, { s with ppu := { s.ppu with vblank := false, w := false } })

/-- Read $2004 (46 R608). -/
def State.readOamData (s : State) : Byte × State := (Table.read s.ppu.oam 0 s.ppu.oamAddr.toNat, s)

/-- The address increment after a $2007 access (46 R611, R612). -/
def State.advanceV (s : State) : State := { s with ppu := { s.ppu with v := s.ppu.v + s.ppu.addrInc } }

/-- Read $2007 (46 R612): palette addresses answer at once, all others through the read buffer. -/
def State.readData (s : State) : Byte × State :=
  let a : PpuAddr := s.ppu.v.setWidth 14
  if 0x3F00 ≤ a.toNat then
    let under := s.ppuReadUnder (a &&& 0x2FFF#14)
    ((s.ppu.paletteRead a).setWidth 8, ({ under.2 with ppu := { under.2.ppu with readBuf := under.1 } } : State).advanceV)
  else
    let r := s.ppuRead a
    (s.ppu.readBuf, ({ r.2 with ppu := { r.2.ppu with readBuf := r.1 } } : State).advanceV)

/-- `PpuRegRead(r)` (46 R601): registers 0, 1, 3, 5, 6 read as 0 with no effect. -/
def State.ppuRegRead (s : State) (r : Nat) : Byte × State :=
  match r with
  | 2 => s.readStatus
  | 4 => s.readOamData
  | 7 => s.readData
  | _ => (0, s)

/-- Write $2000 (46 R603): `t` takes the two nametable bits. -/
def State.writeCtrl (s : State) (d : Byte) : State :=
  { s with ppu := { s.ppu with ctrl := d, t := (s.ppu.t &&& 0x73FF#15) ||| ((d &&& 0x03#8).setWidth 15 <<< 10) } }

/-- Write $2001 (46 R605). -/
def State.writeMask (s : State) (d : Byte) : State :=
  { s with ppu := { s.ppu with mask := d, renderingEnabled := d.getLsbD 3 || d.getLsbD 4 } }

/-- Write $2003 (46 R606). -/
def State.writeOamAddr (s : State) (d : Byte) : State := { s with ppu := { s.ppu with oamAddr := d } }

/-- Write $2004 (46 R607). -/
def State.writeOamData (s : State) (d : Byte) : State :=
  { s with ppu := { s.ppu with oam := Table.write s.ppu.oam 0 s.ppu.oamAddr.toNat d, oamAddr := s.ppu.oamAddr + 1 } }

/-- Write $2005 (46 R609): coarse X and fine X first, then fine Y and coarse Y. -/
def State.writeScroll (s : State) (d : Byte) : State :=
  if s.ppu.w then
    { s with ppu := { s.ppu with
        t := (s.ppu.t &&& 0x0C1F#15) ||| ((d &&& 0x07#8).setWidth 15 <<< 12) ||| ((d >>> 3).setWidth 15 <<< 5)
        w := false } }
  else
    { s with ppu := { s.ppu with
        t := (s.ppu.t &&& 0x7FE0#15) ||| (d >>> 3).setWidth 15
        x := d.setWidth 3
        w := true } }

/-- Write $2006 (46 R610): high six bits first (bit 14 cleared), then the low byte and the copy to `v`. -/
def State.writeAddr (s : State) (d : Byte) : State :=
  if s.ppu.w then
    let t := (s.ppu.t &&& 0x7F00#15) ||| d.setWidth 15
    { s with ppu := { s.ppu with t := t, v := t, w := false } }
  else
    { s with ppu := { s.ppu with t := (s.ppu.t &&& 0x00FF#15) ||| ((d &&& 0x3F#8).setWidth 15 <<< 8), w := true } }

/-- Write $2007 (46 R611). -/
def State.writeData (s : State) (d : Byte) : State := (s.ppuWrite (s.ppu.v.setWidth 14) d).advanceV

/-- `PpuRegWrite(r, d)` (46 R602): register 2 ignores writes. -/
def State.ppuRegWrite (s : State) (r : Nat) (d : Byte) : State :=
  match r with
  | 0 => s.writeCtrl d
  | 1 => s.writeMask d
  | 3 => s.writeOamAddr d
  | 4 => s.writeOamData d
  | 5 => s.writeScroll d
  | 6 => s.writeAddr d
  | 7 => s.writeData d
  | _ => s

end Sys2Proof.Machine
end

