-- ==== Sys2Proof/Machine/Ops.lean ====
section
/-! DEFINITION. The named operations over CPU memory and registers: the CPU bus (20 R203 to R205), the OAM DMA (46 R620), the
stack (41 R430 to R433), register writes with their flags (10 R100), taking an interrupt and returning from one
(60 R800 to R811). -/

namespace Sys2Proof.Machine

/-- A 16-bit value from its two bytes (20 R220). -/
def word (lo hi : Byte) : Addr := hi ++ lo

/-- The low byte of a 16-bit value. -/
def loByte (w : Addr) : Byte := w.setWidth 8

/-- The high byte of a 16-bit value. -/
def hiByte (w : Addr) : Byte := (w >>> 8).setWidth 8

/-- Whether two addresses are on different pages (30 R309, R311). -/
def pageDiffers (a b : Addr) : Bool := hiByte a != hiByte b

/-- A read in 0x4000 to 0x4017 (20 R203; a read of 0x4014 calls the audio unit, log 9). -/
def State.readIo (s : State) (a : Addr) : Byte × State :=
  if a.toNat = 0x4016 then (s.pad0.read.1, { s with pad0 := s.pad0.read.2 })
  else if a.toNat = 0x4017 then (s.pad1.read.1, { s with pad1 := s.pad1.read.2 })
  else ((s.apu.readRegister a).1, { s with apu := (s.apu.readRegister a).2 })

/-- `rd(a)` (20 R204). -/
def State.rd (s : State) (a : Addr) : Byte × State :=
  if a.toNat < 0x2000 then (Table.read s.ram 0 (a.toNat % 0x800), s)
  else if a.toNat < 0x4000 then s.ppuRegRead (a.toNat % 8)
  else if a.toNat < 0x4018 then s.readIo a
  else ((s.cart.cpuRead a).1, { s with cart := (s.cart.cpuRead a).2 })

/-- One byte of an OAM DMA: `rd((d << 8) | i)`, then a $2004 write (46 R620). -/
def State.dmaByte (s : State) (d : Byte) (i : Nat) : State :=
  let r := s.rd (word (BitVec.ofNat 8 i) d)
  r.2.ppuRegWrite 4 r.1

/-- The 256 transfers of an OAM DMA from CPU page `d` (46 R620). -/
def State.dma (s : State) (d : Byte) : State := (List.range 256).foldl (fun s i => s.dmaByte d i) s

/-- A write in 0x4000 to 0x4017 (20 R203): DMA, both controllers, or the audio unit. -/
def State.writeIo (s : State) (a : Addr) (d : Byte) : State :=
  if a.toNat = 0x4014 then s.dma d
  else if a.toNat = 0x4016 then { s with pad0 := s.pad0.write d, pad1 := s.pad1.write d }
  else { s with apu := s.apu.writeRegister a d }

/-- `wr(a, d)` (20 R205). -/
def State.wr (s : State) (a : Addr) (d : Byte) : State :=
  if a.toNat < 0x2000 then { s with ram := Table.write s.ram 0 (a.toNat % 0x800) d }
  else if a.toNat < 0x4000 then s.ppuRegWrite (a.toNat % 8) d
  else if a.toNat < 0x4018 then s.writeIo a d
  else { s with cart := s.cart.cpuWrite a d }

/-- The `extra` cycles of a write to `a`: 513, or 514 when `cycle` is odd, for the DMA register, else none (46 R620). `cycle` is
still its value at the start of the instruction (30 R302). -/
def State.dmaStall (s : State) (a : Addr) : Nat := if a.toNat = 0x4014 then 513 + s.cycle % 2 else 0

/-- `rd16(a)`: low byte first (00 R13). -/
def State.rd16 (s : State) (a : Addr) : Addr × State :=
  let lo := s.rd a
  let hi := lo.2.rd (a + 1)
  (word lo.1 hi.1, hi.2)

/-- The instruction adds its cost to `cycle` (10 R106, 30 R302). -/
def State.charge (s : State) (n : Nat) : State := { s with cycle := s.cycle + n }

/-- A write of `A` with `setZN` (10 R100). -/
def State.setA (s : State) (b : Byte) : State := { s with a := b, p := s.p.setZN b }
/-- A write of `X` with `setZN` (10 R100). -/
def State.setX (s : State) (b : Byte) : State := { s with x := b, p := s.p.setZN b }
/-- A write of `Y` with `setZN` (10 R100). -/
def State.setY (s : State) (b : Byte) : State := { s with y := b, p := s.p.setZN b }

/-- `addc(M)` (42 R451). -/
def State.addc (s : State) (m : Byte) : State := { s with a := aluByte (addRaw s.a m s.p.c), p := s.p.addc s.a m }

/-- The CPU address `SP` names: `0x0100 | SP` (10 R101). -/
def stackAddr (sp : Byte) : Addr := 0x0100#16 ||| sp.setWidth 16

/-- `push(b)`: write, then decrement (41 R430). -/
def State.push (s : State) (b : Byte) : State :=
  let t := s.wr (stackAddr s.sp) b
  { t with sp := t.sp - 1 }

/-- `pull()`: increment, then read (41 R431). -/
def State.pull (s : State) : Byte × State :=
  ({ s with sp := s.sp + 1 } : State).rd (stackAddr (s.sp + 1))

/-- `push16(w)`: high byte first (41 R432). -/
def State.push16 (s : State) (w : Addr) : State := (s.push (hiByte w)).push (loByte w)

/-- `pull16()`: low byte first (41 R433). -/
def State.pull16 (s : State) : Addr × State :=
  let lo := s.pull
  let hi := lo.2.pull
  (word lo.1 hi.1, hi.2)

/-- The NMI vector (20 R208). -/
def nmiVector : Addr := 0xFFFA#16
/-- The RESET vector (20 R208). -/
def resetVector : Addr := 0xFFFC#16
/-- The IRQ and BRK vector (20 R208). -/
def irqVector : Addr := 0xFFFE#16

/-- `PC <- rd16(vec)` (20 R208). -/
def State.jumpVector (s : State) (vec : Addr) : State :=
  let r := s.rd16 vec
  { r.2 with pc := r.1 }

/-- The flag write of an entry: `I <- 1` only with INT_ENTRY_SETS_I (60 R800). -/
def State.entrySetsI (s : State) : State :=
  if s.params.intEntrySetsI then { s with p := { s.p with i := true } } else s

/-- TAKING AN INTERRUPT, `enter(vec, pushPC)` with its pushes as arguments (60 R800): `PC` pushed if asked, `P` with B clear
pushed if asked, `I` set only with the parameter, `PC` from the vector, 7 cycles. -/
def State.enter (s : State) (vec : Addr) (pushPC pushP : Bool) : State :=
  let s1 := if pushPC then s.push16 s.pc else s
  let s2 := if pushP then s1.push s1.p.pushedByEntry else s1
  (s2.entrySetsI.jumpVector vec).charge 7

/-- `doNMI()` (60 R801): not maskable. -/
def State.doNMI (s : State) : State := s.enter nmiVector true true

/-- `doIRQ()` (60 R807): nothing while `I` is set; the request is not latched (60 R806). -/
def State.doIRQ (s : State) : State := if s.p.i then s else s.enter irqVector true true

/-- `doReset()` (60 R803): `PC` is not pushed, `P` only with RESET_PUSHES_P. -/
def State.doReset (s : State) : State := s.enter resetVector false s.params.resetPushesP

/-- The software entry of BRK (44 R514, 60 R802): pushes the address after the padding byte and `P` with B set, sets `I`. -/
def State.softwareEntry (s : State) : State :=
  let s1 := (s.push16 (s.pc + 1)).push s.p.pushedByInstr
  ({ s1 with p := { s1.p with i := true } } : State).jumpVector irqVector

/-- RETURN FROM AN INTERRUPT (44 R513, 60 R811): `P`, then `PC`, nothing added. -/
def State.returnFromInterrupt (s : State) : State :=
  let b := s.pull
  let r := ({ b.2 with p := Status.ofByte b.1 } : State).pull16
  { r.2 with pc := r.1 }

end Sys2Proof.Machine
end

