-- ==== Sys2Proof/Machine/Operands.lean ====
section
/-! DEFINITION. The operand forms of the CPU (30 R303 to R317) and the instruction shapes built on them: read, write,
read-modify-write, accumulator, branch. Operand bytes have been read, and `PC` advanced past them, before an instruction's
meaning runs (30 R302); a shape charges BASE, the page-cross penalty where the opcode has one, and `extra` (30 R330). -/

namespace Sys2Proof.Machine

/-- An addressing mode that resolves to an effective address, with its operand (30 R306 to R315). -/
inductive Ea where
  | zp (z : Byte)
  | zpx (z : Byte)
  | zpy (z : Byte)
  | abs (a : Addr)
  | absx (a : Addr)
  | absy (a : Addr)
  | ind (a : Addr)
  | indx (z : Byte)
  | indy (z : Byte)
  deriving DecidableEq, Repr

/-- What a mode resolves to: the effective address, whether a page was crossed, and the state after its reads. -/
structure Resolved where
  ea : Addr
  crossed : Bool
  st : State

/-- A byte as a zero-page address (30 R306). -/
def zeroPage (z : Byte) : Addr := z.setWidth 16

/-- A pointer read from the zero page, its high byte from `(z + 1) & 0xFF` (30 R314, R315). -/
def State.readPointer (s : State) (z : Byte) : Addr × State :=
  let lo := s.rd (zeroPage z)
  let hi := lo.2.rd (zeroPage (z + 1))
  (word lo.1 hi.1, hi.2)

/-- The address of an indirect jump's high byte: the same page as the low byte (30 R313). -/
def samePageNext (a : Addr) : Addr := word (loByte a + 1) (hiByte a)

/-- Resolve a mode (30 R306 to R316). -/
def State.resolve (s : State) : Ea → Resolved
  | .zp z => ⟨zeroPage z, false, s⟩
  | .zpx z => ⟨zeroPage (z + s.x), false, s⟩
  | .zpy z => ⟨zeroPage (z + s.y), false, s⟩
  | .abs a => ⟨a, false, s⟩
  | .absx a => ⟨a + s.x.setWidth 16, pageDiffers a (a + s.x.setWidth 16), s⟩
  | .absy a => ⟨a + s.y.setWidth 16, pageDiffers a (a + s.y.setWidth 16), s⟩
  | .ind a =>
    let lo := s.rd a
    let hi := lo.2.rd (samePageNext a)
    ⟨word lo.1 hi.1, false, hi.2⟩
  | .indx z =>
    let r := s.readPointer (z + s.x)
    ⟨r.1, false, r.2⟩
  | .indy z =>
    let r := s.readPointer z
    ⟨r.1 + s.y.setWidth 16, pageDiffers r.1 (r.1 + s.y.setWidth 16), r.2⟩

/-- A read operation on an immediate byte: 2 cycles (30 R305, R317). -/
def readImm (v : Byte) (op : Byte → State → State) (s : State) : Result := .next ((op v s).charge 2)

/-- A read operation on memory: `M` is read once (30 R317); the penalty applies only where the opcode has it (30 R331). -/
def readMem (m : Ea) (base : Nat) (penalty : Bool) (op : Byte → State → State) (s : State) : Result :=
  let r := s.resolve m
  let b := r.st.rd r.ea
  .next ((op b.1 b.2).charge (base + if penalty && r.crossed then 1 else 0))

/-- A write operation: one write of the register, no read of `ea`, never a penalty (30 R317, R331). -/
def storeMem (m : Ea) (base : Nat) (reg : State → Byte) (s : State) : Result :=
  let r := s.resolve m
  .next ((r.st.wr r.ea (reg r.st)).charge (base + r.st.dmaStall r.ea))

/-- A read-modify-write operation on memory: one read, one write (20 R222, 30 R317). -/
def modifyMem (m : Ea) (base : Nat) (op : Modify) (s : State) : Result :=
  let r := s.resolve m
  let b := r.st.rd r.ea
  let o := op b.1 b.2.p
  .next ((({ b.2 with p := o.2 } : State).wr r.ea o.1).charge (base + b.2.dmaStall r.ea))

/-- A read-modify-write operation on the accumulator: 2 cycles (30 R304, R317). -/
def modifyAcc (op : Modify) (s : State) : Result :=
  let o := op s.a s.p
  .next (({ s with a := o.1, p := o.2 } : State).charge 2)

/-- An implied operation with its fixed cost (30 R303). -/
def implied (cost : Nat) (op : State → State) (s : State) : Result := .next ((op s).charge cost)

/-- JMP: `PC <- ea`, nothing is read at `ea` (44 R510). -/
def jump (m : Ea) (cost : Nat) (s : State) : Result :=
  let r := s.resolve m
  .next (({ r.st with pc := r.ea } : State).charge cost)

/-- The target of a relative branch, from the already advanced `PC` (30 R309). -/
def branchTarget (pc : Addr) (o : Byte) : Addr := pc + o.signExtend 16

/-- `branch(cond)` (44 R515, 30 R333): 2 cycles, 3 taken, 4 taken across a page. -/
def branch (o : Byte) (cond : State → Bool) (s : State) : Result :=
  let target := branchTarget s.pc o
  if cond s then .next (({ s with pc := target } : State).charge (2 + if pageDiffers s.pc target then 2 else 1))
  else .next (s.charge 2)

end Sys2Proof.Machine
end

