-- ==== Sys2Proof/Machine/Arithmetic.lean ====
section
/-! DEFINITION. Arithmetic, compare, increment and decrement (42 R452 to R463): binary whatever D holds (42 R450); increments and decrements leave C and V. -/

namespace Sys2Proof.Machine

/-- What ADC does with its operand `M` (R452). -/
def adcOp (m : Byte) (s : State) : State := s.addc m

/-- What SBC does with its operand `M` (R453). -/
def sbcOp (m : Byte) (s : State) : State := s.addc (0xFF#8 - m)

/-- What CMP does with its operand `M` (R455). -/
def cmpOp (m : Byte) (s : State) : State := { s with p := s.p.compare s.a m }

/-- What CPX does with its operand `M` (R456). -/
def cpxOp (m : Byte) (s : State) : State := { s with p := s.p.compare s.x m }

/-- What CPY does with its operand `M` (R457). -/
def cpyOp (m : Byte) (s : State) : State := { s with p := s.p.compare s.y m }

/-- ADC (indirect,X) (R452). -/
def execAdcIndX (z : Byte) (s : State) : Result :=
  readMem (.indx z) 6 false adcOp s

/-- ADC zero-page (R452). -/
def execAdcZp (z : Byte) (s : State) : Result :=
  readMem (.zp z) 3 false adcOp s

/-- ADC immediate (R452). -/
def execAdcImm (v : Byte) (s : State) : Result :=
  readImm v adcOp s

/-- ADC absolute (R452). -/
def execAdcAbs (a : Addr) (s : State) : Result :=
  readMem (.abs a) 4 false adcOp s

/-- ADC (indirect),Y (R452). -/
def execAdcIndY (z : Byte) (s : State) : Result :=
  readMem (.indy z) 5 true adcOp s

/-- ADC zero-page,X (R452). -/
def execAdcZpX (z : Byte) (s : State) : Result :=
  readMem (.zpx z) 4 false adcOp s

/-- ADC absolute,Y (R452). -/
def execAdcAbsY (a : Addr) (s : State) : Result :=
  readMem (.absy a) 4 true adcOp s

/-- ADC absolute,X (R452). -/
def execAdcAbsX (a : Addr) (s : State) : Result :=
  readMem (.absx a) 4 true adcOp s

/-- SBC (indirect,X) (R453). -/
def execSbcIndX (z : Byte) (s : State) : Result :=
  readMem (.indx z) 6 false sbcOp s

/-- SBC zero-page (R453). -/
def execSbcZp (z : Byte) (s : State) : Result :=
  readMem (.zp z) 3 false sbcOp s

/-- SBC immediate (R453). -/
def execSbcImm (v : Byte) (s : State) : Result :=
  readImm v sbcOp s

/-- SBC absolute (R453). -/
def execSbcAbs (a : Addr) (s : State) : Result :=
  readMem (.abs a) 4 false sbcOp s

/-- SBC (indirect),Y (R453). -/
def execSbcIndY (z : Byte) (s : State) : Result :=
  readMem (.indy z) 5 true sbcOp s

/-- SBC zero-page,X (R453). -/
def execSbcZpX (z : Byte) (s : State) : Result :=
  readMem (.zpx z) 4 false sbcOp s

/-- SBC absolute,Y (R453). -/
def execSbcAbsY (a : Addr) (s : State) : Result :=
  readMem (.absy a) 4 true sbcOp s

/-- SBC absolute,X (R453). -/
def execSbcAbsX (a : Addr) (s : State) : Result :=
  readMem (.absx a) 4 true sbcOp s

/-- CMP (indirect,X) (R455). -/
def execCmpIndX (z : Byte) (s : State) : Result :=
  readMem (.indx z) 6 false cmpOp s

/-- CMP zero-page (R455). -/
def execCmpZp (z : Byte) (s : State) : Result :=
  readMem (.zp z) 3 false cmpOp s

/-- CMP immediate (R455). -/
def execCmpImm (v : Byte) (s : State) : Result :=
  readImm v cmpOp s

/-- CMP absolute (R455). -/
def execCmpAbs (a : Addr) (s : State) : Result :=
  readMem (.abs a) 4 false cmpOp s

/-- CMP (indirect),Y (R455). -/
def execCmpIndY (z : Byte) (s : State) : Result :=
  readMem (.indy z) 5 true cmpOp s

/-- CMP zero-page,X (R455). -/
def execCmpZpX (z : Byte) (s : State) : Result :=
  readMem (.zpx z) 4 false cmpOp s

/-- CMP absolute,Y (R455). -/
def execCmpAbsY (a : Addr) (s : State) : Result :=
  readMem (.absy a) 4 true cmpOp s

/-- CMP absolute,X (R455). -/
def execCmpAbsX (a : Addr) (s : State) : Result :=
  readMem (.absx a) 4 true cmpOp s

/-- CPX immediate (R456). -/
def execCpxImm (v : Byte) (s : State) : Result :=
  readImm v cpxOp s

/-- CPX zero-page (R456). -/
def execCpxZp (z : Byte) (s : State) : Result :=
  readMem (.zp z) 3 false cpxOp s

/-- CPX absolute (R456). -/
def execCpxAbs (a : Addr) (s : State) : Result :=
  readMem (.abs a) 4 false cpxOp s

/-- CPY immediate (R457). -/
def execCpyImm (v : Byte) (s : State) : Result :=
  readImm v cpyOp s

/-- CPY zero-page (R457). -/
def execCpyZp (z : Byte) (s : State) : Result :=
  readMem (.zp z) 3 false cpyOp s

/-- CPY absolute (R457). -/
def execCpyAbs (a : Addr) (s : State) : Result :=
  readMem (.abs a) 4 false cpyOp s

/-- INC zero-page (R458). -/
def execIncZp (z : Byte) (s : State) : Result :=
  modifyMem (.zp z) 5 incOp s

/-- INC absolute (R458). -/
def execIncAbs (a : Addr) (s : State) : Result :=
  modifyMem (.abs a) 6 incOp s

/-- INC zero-page,X (R458). -/
def execIncZpX (z : Byte) (s : State) : Result :=
  modifyMem (.zpx z) 6 incOp s

/-- INC absolute,X (R458). -/
def execIncAbsX (a : Addr) (s : State) : Result :=
  modifyMem (.absx a) 7 incOp s

/-- INX (R459). -/
def execInx (s : State) : Result :=
  implied 2 (fun s => s.setX (s.x + 1)) s

/-- INY (R460). -/
def execIny (s : State) : Result :=
  implied 2 (fun s => s.setY (s.y + 1)) s

/-- DEC zero-page (R461). -/
def execDecZp (z : Byte) (s : State) : Result :=
  modifyMem (.zp z) 5 decOp s

/-- DEC absolute (R461). -/
def execDecAbs (a : Addr) (s : State) : Result :=
  modifyMem (.abs a) 6 decOp s

/-- DEC zero-page,X (R461). -/
def execDecZpX (z : Byte) (s : State) : Result :=
  modifyMem (.zpx z) 6 decOp s

/-- DEC absolute,X (R461). -/
def execDecAbsX (a : Addr) (s : State) : Result :=
  modifyMem (.absx a) 7 decOp s

/-- DEX (R462). -/
def execDex (s : State) : Result :=
  implied 2 (fun s => s.setX (s.x - 1)) s

/-- DEY (R463). -/
def execDey (s : State) : Result :=
  implied 2 (fun s => s.setY (s.y - 1)) s

end Sys2Proof.Machine
end

