-- ==== Sys2Proof/Machine/Control.lean ====
section
/-! DEFINITION. Jumps, calls, returns, BRK and the conditional branches (44 R510 to R523). `PC` is already past the instruction (30 R302). -/

namespace Sys2Proof.Machine

/-- JMP absolute (R510). -/
def execJmpAbs (a : Addr) (s : State) : Result :=
  jump (.abs a) 3 s

/-- JMP indirect (R510). -/
def execJmpInd (a : Addr) (s : State) : Result :=
  jump (.ind a) 5 s

/-- JSR absolute (R511). -/
def execJsr (a : Addr) (s : State) : Result :=
  implied 6 (fun s => { s.push16 (s.pc - 1) with pc := a }) s

/-- RTS (R512). -/
def execRts (s : State) : Result :=
  implied 6 (fun s => { s.pull16.2 with pc := s.pull16.1 + 1 }) s

/-- RTI (R513). -/
def execRti (s : State) : Result :=
  implied 6 (fun s => s.returnFromInterrupt) s

/-- BRK (R514). -/
def execBrk (s : State) : Result :=
  implied 7 (fun s => s.softwareEntry) s

/-- BCC relative (R516). -/
def execBcc (o : Byte) (s : State) : Result :=
  branch o (fun s => !s.p.c) s

/-- BCS relative (R517). -/
def execBcs (o : Byte) (s : State) : Result :=
  branch o (fun s => s.p.c) s

/-- BEQ relative (R518). -/
def execBeq (o : Byte) (s : State) : Result :=
  branch o (fun s => s.p.z) s

/-- BNE relative (R519). -/
def execBne (o : Byte) (s : State) : Result :=
  branch o (fun s => !s.p.z) s

/-- BMI relative (R520). -/
def execBmi (o : Byte) (s : State) : Result :=
  branch o (fun s => s.p.n) s

/-- BPL relative (R521). -/
def execBpl (o : Byte) (s : State) : Result :=
  branch o (fun s => !s.p.n) s

/-- BVC relative (R522). -/
def execBvc (o : Byte) (s : State) : Result :=
  branch o (fun s => !s.p.v) s

/-- BVS relative (R523). -/
def execBvs (o : Byte) (s : State) : Result :=
  branch o (fun s => s.p.v) s

end Sys2Proof.Machine
end

