-- ==== Sys2Proof/Machine/FlagOps.lean ====
section
/-! DEFINITION. Flag instructions, NOP and the illegal opcodes (45 R550 to R558). -/

namespace Sys2Proof.Machine

/-- CLC (R550). -/
def execClc (s : State) : Result :=
  implied 2 (fun s => { s with p := { s.p with c := false } }) s

/-- SEC (R551). -/
def execSec (s : State) : Result :=
  implied 2 (fun s => { s with p := { s.p with c := true } }) s

/-- CLI (R552). -/
def execCli (s : State) : Result :=
  implied 2 (fun s => { s with p := { s.p with i := false } }) s

/-- SEI (R553). -/
def execSei (s : State) : Result :=
  implied 2 (fun s => { s with p := { s.p with i := true } }) s

/-- CLD (R554). -/
def execCld (s : State) : Result :=
  implied 2 (fun s => { s with p := { s.p with d := false } }) s

/-- SED (R555). -/
def execSed (s : State) : Result :=
  implied 2 (fun s => { s with p := { s.p with d := true } }) s

/-- CLV (R556). -/
def execClv (s : State) : Result :=
  implied 2 (fun s => { s with p := { s.p with v := false } }) s

/-- NOP (R557). -/
def execNop (s : State) : Result :=
  implied 2 (fun s => s) s

/-- ILLEGAL (R558): the reset entry, or the terminal fault, by ILLEGAL_POLICY; base cost 0, the 7 cycles are the entry's. -/
def execIllegal (op : Byte) (s : State) : Result :=
  match s.params.illegalPolicy with
  | .reset => .next s.doReset
  | .fault => .fault (.illegalOpcode op)

end Sys2Proof.Machine
end

