-- ==== Sys2Proof/Machine/LoadStore.lean ====
section
/-! DEFINITION. Loads, stores and register transfers (40 R400 to R411): loads and transfers into A, X, Y write Z and N and leave C (10 R100); TXS and the stores write no flag. -/

namespace Sys2Proof.Machine

/-- What LDA does with its operand `M` (R400). -/
def ldaOp (m : Byte) (s : State) : State := s.setA m

/-- What LDX does with its operand `M` (R401). -/
def ldxOp (m : Byte) (s : State) : State := s.setX m

/-- What LDY does with its operand `M` (R402). -/
def ldyOp (m : Byte) (s : State) : State := s.setY m

/-- LDA (indirect,X) (R400). -/
def execLdaIndX (z : Byte) (s : State) : Result :=
  readMem (.indx z) 6 false ldaOp s

/-- LDA zero-page (R400). -/
def execLdaZp (z : Byte) (s : State) : Result :=
  readMem (.zp z) 3 false ldaOp s

/-- LDA immediate (R400). -/
def execLdaImm (v : Byte) (s : State) : Result :=
  readImm v ldaOp s

/-- LDA absolute (R400). -/
def execLdaAbs (a : Addr) (s : State) : Result :=
  readMem (.abs a) 4 false ldaOp s

/-- LDA (indirect),Y (R400). -/
def execLdaIndY (z : Byte) (s : State) : Result :=
  readMem (.indy z) 5 true ldaOp s

/-- LDA zero-page,X (R400). -/
def execLdaZpX (z : Byte) (s : State) : Result :=
  readMem (.zpx z) 4 false ldaOp s

/-- LDA absolute,Y (R400). -/
def execLdaAbsY (a : Addr) (s : State) : Result :=
  readMem (.absy a) 4 true ldaOp s

/-- LDA absolute,X (R400). -/
def execLdaAbsX (a : Addr) (s : State) : Result :=
  readMem (.absx a) 4 true ldaOp s

/-- LDX immediate (R401). -/
def execLdxImm (v : Byte) (s : State) : Result :=
  readImm v ldxOp s

/-- LDX zero-page (R401). -/
def execLdxZp (z : Byte) (s : State) : Result :=
  readMem (.zp z) 3 false ldxOp s

/-- LDX absolute (R401). -/
def execLdxAbs (a : Addr) (s : State) : Result :=
  readMem (.abs a) 4 false ldxOp s

/-- LDX zero-page,Y (R401). -/
def execLdxZpY (z : Byte) (s : State) : Result :=
  readMem (.zpy z) 4 false ldxOp s

/-- LDX absolute,Y (R401). -/
def execLdxAbsY (a : Addr) (s : State) : Result :=
  readMem (.absy a) 4 true ldxOp s

/-- LDY immediate (R402). -/
def execLdyImm (v : Byte) (s : State) : Result :=
  readImm v ldyOp s

/-- LDY zero-page (R402). -/
def execLdyZp (z : Byte) (s : State) : Result :=
  readMem (.zp z) 3 false ldyOp s

/-- LDY absolute (R402). -/
def execLdyAbs (a : Addr) (s : State) : Result :=
  readMem (.abs a) 4 false ldyOp s

/-- LDY zero-page,X (R402). -/
def execLdyZpX (z : Byte) (s : State) : Result :=
  readMem (.zpx z) 4 false ldyOp s

/-- LDY absolute,X (R402). -/
def execLdyAbsX (a : Addr) (s : State) : Result :=
  readMem (.absx a) 4 true ldyOp s

/-- STA (indirect,X) (R403). -/
def execStaIndX (z : Byte) (s : State) : Result :=
  storeMem (.indx z) 6 State.a s

/-- STA zero-page (R403). -/
def execStaZp (z : Byte) (s : State) : Result :=
  storeMem (.zp z) 3 State.a s

/-- STA absolute (R403). -/
def execStaAbs (a : Addr) (s : State) : Result :=
  storeMem (.abs a) 4 State.a s

/-- STA (indirect),Y (R403). -/
def execStaIndY (z : Byte) (s : State) : Result :=
  storeMem (.indy z) 6 State.a s

/-- STA zero-page,X (R403). -/
def execStaZpX (z : Byte) (s : State) : Result :=
  storeMem (.zpx z) 4 State.a s

/-- STA absolute,Y (R403). -/
def execStaAbsY (a : Addr) (s : State) : Result :=
  storeMem (.absy a) 5 State.a s

/-- STA absolute,X (R403). -/
def execStaAbsX (a : Addr) (s : State) : Result :=
  storeMem (.absx a) 5 State.a s

/-- STX zero-page (R404). -/
def execStxZp (z : Byte) (s : State) : Result :=
  storeMem (.zp z) 3 State.x s

/-- STX absolute (R404). -/
def execStxAbs (a : Addr) (s : State) : Result :=
  storeMem (.abs a) 4 State.x s

/-- STX zero-page,Y (R404). -/
def execStxZpY (z : Byte) (s : State) : Result :=
  storeMem (.zpy z) 4 State.x s

/-- STY zero-page (R405). -/
def execStyZp (z : Byte) (s : State) : Result :=
  storeMem (.zp z) 3 State.y s

/-- STY absolute (R405). -/
def execStyAbs (a : Addr) (s : State) : Result :=
  storeMem (.abs a) 4 State.y s

/-- STY zero-page,X (R405). -/
def execStyZpX (z : Byte) (s : State) : Result :=
  storeMem (.zpx z) 4 State.y s

/-- TAX (R406). -/
def execTax (s : State) : Result :=
  implied 2 (fun s => s.setX s.a) s

/-- TAY (R407). -/
def execTay (s : State) : Result :=
  implied 2 (fun s => s.setY s.a) s

/-- TXA (R408). -/
def execTxa (s : State) : Result :=
  implied 2 (fun s => s.setA s.x) s

/-- TYA (R409). -/
def execTya (s : State) : Result :=
  implied 2 (fun s => s.setA s.y) s

/-- TSX (R410). -/
def execTsx (s : State) : Result :=
  implied 2 (fun s => s.setX s.sp) s

/-- TXS (R411). -/
def execTxs (s : State) : Result :=
  implied 2 (fun s => { s with sp := s.x }) s

end Sys2Proof.Machine
end

