-- ==== Sys2Proof/Machine/Logic.lean ====
section
/-! DEFINITION. Logic, bit test, shifts and rotates (43 R480 to R487). -/

namespace Sys2Proof.Machine

/-- What AND does with its operand `M` (R480). -/
def andOp (m : Byte) (s : State) : State := s.setA (s.a &&& m)

/-- What ORA does with its operand `M` (R481). -/
def oraOp (m : Byte) (s : State) : State := s.setA (s.a ||| m)

/-- What EOR does with its operand `M` (R482). -/
def eorOp (m : Byte) (s : State) : State := s.setA (s.a ^^^ m)

/-- What BIT does with its operand `M` (R483). -/
def bitOp (m : Byte) (s : State) : State := { s with p := s.p.bitTest s.a m }

/-- AND (indirect,X) (R480). -/
def execAndIndX (z : Byte) (s : State) : Result :=
  readMem (.indx z) 6 false andOp s

/-- AND zero-page (R480). -/
def execAndZp (z : Byte) (s : State) : Result :=
  readMem (.zp z) 3 false andOp s

/-- AND immediate (R480). -/
def execAndImm (v : Byte) (s : State) : Result :=
  readImm v andOp s

/-- AND absolute (R480). -/
def execAndAbs (a : Addr) (s : State) : Result :=
  readMem (.abs a) 4 false andOp s

/-- AND (indirect),Y (R480). -/
def execAndIndY (z : Byte) (s : State) : Result :=
  readMem (.indy z) 5 true andOp s

/-- AND zero-page,X (R480). -/
def execAndZpX (z : Byte) (s : State) : Result :=
  readMem (.zpx z) 4 false andOp s

/-- AND absolute,Y (R480). -/
def execAndAbsY (a : Addr) (s : State) : Result :=
  readMem (.absy a) 4 true andOp s

/-- AND absolute,X (R480). -/
def execAndAbsX (a : Addr) (s : State) : Result :=
  readMem (.absx a) 4 true andOp s

/-- ORA (indirect,X) (R481). -/
def execOraIndX (z : Byte) (s : State) : Result :=
  readMem (.indx z) 6 false oraOp s

/-- ORA zero-page (R481). -/
def execOraZp (z : Byte) (s : State) : Result :=
  readMem (.zp z) 3 false oraOp s

/-- ORA immediate (R481). -/
def execOraImm (v : Byte) (s : State) : Result :=
  readImm v oraOp s

/-- ORA absolute (R481). -/
def execOraAbs (a : Addr) (s : State) : Result :=
  readMem (.abs a) 4 false oraOp s

/-- ORA (indirect),Y (R481). -/
def execOraIndY (z : Byte) (s : State) : Result :=
  readMem (.indy z) 5 true oraOp s

/-- ORA zero-page,X (R481). -/
def execOraZpX (z : Byte) (s : State) : Result :=
  readMem (.zpx z) 4 false oraOp s

/-- ORA absolute,Y (R481). -/
def execOraAbsY (a : Addr) (s : State) : Result :=
  readMem (.absy a) 4 true oraOp s

/-- ORA absolute,X (R481). -/
def execOraAbsX (a : Addr) (s : State) : Result :=
  readMem (.absx a) 4 true oraOp s

/-- EOR (indirect,X) (R482). -/
def execEorIndX (z : Byte) (s : State) : Result :=
  readMem (.indx z) 6 false eorOp s

/-- EOR zero-page (R482). -/
def execEorZp (z : Byte) (s : State) : Result :=
  readMem (.zp z) 3 false eorOp s

/-- EOR immediate (R482). -/
def execEorImm (v : Byte) (s : State) : Result :=
  readImm v eorOp s

/-- EOR absolute (R482). -/
def execEorAbs (a : Addr) (s : State) : Result :=
  readMem (.abs a) 4 false eorOp s

/-- EOR (indirect),Y (R482). -/
def execEorIndY (z : Byte) (s : State) : Result :=
  readMem (.indy z) 5 true eorOp s

/-- EOR zero-page,X (R482). -/
def execEorZpX (z : Byte) (s : State) : Result :=
  readMem (.zpx z) 4 false eorOp s

/-- EOR absolute,Y (R482). -/
def execEorAbsY (a : Addr) (s : State) : Result :=
  readMem (.absy a) 4 true eorOp s

/-- EOR absolute,X (R482). -/
def execEorAbsX (a : Addr) (s : State) : Result :=
  readMem (.absx a) 4 true eorOp s

/-- BIT zero-page (R483). -/
def execBitZp (z : Byte) (s : State) : Result :=
  readMem (.zp z) 3 false bitOp s

/-- BIT absolute (R483). -/
def execBitAbs (a : Addr) (s : State) : Result :=
  readMem (.abs a) 4 false bitOp s

/-- ASL zero-page (R484). -/
def execAslZp (z : Byte) (s : State) : Result :=
  modifyMem (.zp z) 5 aslOp s

/-- ASL accumulator (R484). -/
def execAslAcc (s : State) : Result :=
  modifyAcc aslOp s

/-- ASL absolute (R484). -/
def execAslAbs (a : Addr) (s : State) : Result :=
  modifyMem (.abs a) 6 aslOp s

/-- ASL zero-page,X (R484). -/
def execAslZpX (z : Byte) (s : State) : Result :=
  modifyMem (.zpx z) 6 aslOp s

/-- ASL absolute,X (R484). -/
def execAslAbsX (a : Addr) (s : State) : Result :=
  modifyMem (.absx a) 7 aslOp s

/-- LSR zero-page (R485). -/
def execLsrZp (z : Byte) (s : State) : Result :=
  modifyMem (.zp z) 5 lsrOp s

/-- LSR accumulator (R485). -/
def execLsrAcc (s : State) : Result :=
  modifyAcc lsrOp s

/-- LSR absolute (R485). -/
def execLsrAbs (a : Addr) (s : State) : Result :=
  modifyMem (.abs a) 6 lsrOp s

/-- LSR zero-page,X (R485). -/
def execLsrZpX (z : Byte) (s : State) : Result :=
  modifyMem (.zpx z) 6 lsrOp s

/-- LSR absolute,X (R485). -/
def execLsrAbsX (a : Addr) (s : State) : Result :=
  modifyMem (.absx a) 7 lsrOp s

/-- ROL zero-page (R486). -/
def execRolZp (z : Byte) (s : State) : Result :=
  modifyMem (.zp z) 5 rolOp s

/-- ROL accumulator (R486). -/
def execRolAcc (s : State) : Result :=
  modifyAcc rolOp s

/-- ROL absolute (R486). -/
def execRolAbs (a : Addr) (s : State) : Result :=
  modifyMem (.abs a) 6 rolOp s

/-- ROL zero-page,X (R486). -/
def execRolZpX (z : Byte) (s : State) : Result :=
  modifyMem (.zpx z) 6 rolOp s

/-- ROL absolute,X (R486). -/
def execRolAbsX (a : Addr) (s : State) : Result :=
  modifyMem (.absx a) 7 rolOp s

/-- ROR zero-page (R487). -/
def execRorZp (z : Byte) (s : State) : Result :=
  modifyMem (.zp z) 5 rorOp s

/-- ROR accumulator (R487). -/
def execRorAcc (s : State) : Result :=
  modifyAcc rorOp s

/-- ROR absolute (R487). -/
def execRorAbs (a : Addr) (s : State) : Result :=
  modifyMem (.abs a) 6 rorOp s

/-- ROR zero-page,X (R487). -/
def execRorZpX (z : Byte) (s : State) : Result :=
  modifyMem (.zpx z) 6 rorOp s

/-- ROR absolute,X (R487). -/
def execRorAbsX (a : Addr) (s : State) : Result :=
  modifyMem (.absx a) 7 rorOp s

end Sys2Proof.Machine
end

