-- ==== Sys2Proof/Machine/Stack.lean ====
section
/-! DEFINITION. The stack instructions (41 R434 to R437). -/

namespace Sys2Proof.Machine

/-- PHA (R434). -/
def execPha (s : State) : Result :=
  implied 3 (fun s => s.push s.a) s

/-- PHP (R435). -/
def execPhp (s : State) : Result :=
  implied 3 (fun s => s.push s.p.pushedByInstr) s

/-- PLA (R436). -/
def execPla (s : State) : Result :=
  implied 4 (fun s => s.pull.2.setA s.pull.1) s

/-- PLP (R437). -/
def execPlp (s : State) : Result :=
  implied 4 (fun s => { s.pull.2 with p := Status.ofByte s.pull.1 }) s

end Sys2Proof.Machine
end

