-- ==== Sys2Proof/Machine/Fetch.lean ====
section
/-! DEFINITION. Fetching an instruction (30 R302): every byte is an ordinary bus read at `PC`, with its side effects
(20 R223, R228). -/

namespace Sys2Proof.Machine

/-- Read the byte at `PC` and advance `PC` (30 R302). -/
def State.fetchByte (s : State) : Byte × State :=
  let r := s.rd s.pc
  (r.1, { r.2 with pc := r.2.pc + 1 })

/-- Read as many bytes, in order. -/
def State.fetchBytes (s : State) : Nat → List Byte × State
  | 0 => ([], s)
  | n + 1 =>
    let b := s.fetchByte
    let r := b.2.fetchBytes n
    (b.1 :: r.1, r.2)

/-- Fetch the opcode byte and the operand bytes it asks for, and decode them: the instruction, and the state with `PC` past it
(30 R301, R302). -/
def State.fetch (s : State) : Instr × State :=
  let op := s.fetchByte
  let rest := op.2.fetchBytes (instrLength op.1 - 1)
  (decodeOp op.1 (rest.1.getD 0 0) (rest.1.getD 1 0), rest.2)

/-- Store bytes at consecutive cells of a memory of `size` bytes, the image of a bus address (20 R201, R238). -/
def storeBytes (m : Memory) (size base : Nat) (bytes : List Byte) : Memory :=
  (bytes.zipIdx).foldl (fun m b => Table.write m 0 ((base + b.2) % size) b.1) m

/-- The state with three bytes where the next instruction is fetched from: in work RAM, or in the reference cartridge's PRG, or,
when `PC` is at neither, in work RAM at 0 with `PC` moved there (log 6). -/
def State.placeBytes (s : State) (bytes : List Byte) : State :=
  if s.pc.toNat + 2 < 0x2000 then { s with ram := storeBytes s.ram 0x800 s.pc.toNat bytes }
  else
    match s.cart with
    | .reference r =>
      if 0x8000 ≤ s.pc.toNat ∧ s.pc.toNat + 2 < 0x10000 then
        { s with cart := .reference { r with prg := storeBytes r.prg 0x8000 (s.pc.toNat - 0x8000) bytes } }
      else { s with pc := 0, ram := storeBytes s.ram 0x800 0 bytes }
    | .external _ => { s with pc := 0, ram := storeBytes s.ram 0x800 0 bytes }

end Sys2Proof.Machine
end

