-- ==== Sys2Proof/Machine/PpuBackground.lean ====
section
/-! DEFINITION. The PPU's scroll-address operations and the background tile fetch (47 R640 to R651). -/

namespace Sys2Proof.Machine

/-- `incrementX` on a value of `v` (47 R641). -/
def incX (v : VAddr) : VAddr := if v &&& 0x001F#15 = 31#15 then (v &&& 0x7FE0#15) ^^^ 0x0400#15 else v + 1

/-- `incrementY` on a value of `v` (47 R642): coarse Y 29 wraps and toggles bit 11, 31 wraps without a toggle. -/
def incY (v : VAddr) : VAddr :=
  if v &&& 0x7000#15 ≠ 0x7000#15 then v + 0x1000#15
  else
    let w := v &&& 0x0FFF#15
    let cy := (w >>> 5) &&& 0x1F#15
    if cy = 29#15 then (w ^^^ 0x0800#15) &&& 0x7C1F#15
    else if cy = 31#15 then w &&& 0x7C1F#15
    else (w &&& 0x7C1F#15) ||| ((cy + 1) <<< 5)

/-- `resetX` on values of `v` and `t` (47 R643). -/
def copyX (v t : VAddr) : VAddr := (v &&& 0x7BE0#15) ||| (t &&& 0x041F#15)

/-- `resetY` on values of `v` and `t` (47 R644). -/
def copyY (v t : VAddr) : VAddr := (v &&& 0x041F#15) ||| (t &&& 0x7BE0#15)

/-- A change of `v` that happens only while rendering is enabled (47 R640). -/
def State.scroll (s : State) (f : VAddr → VAddr → VAddr) : State :=
  if s.ppu.renderingEnabled then { s with ppu := { s.ppu with v := f s.ppu.v s.ppu.t } } else s

/-- `incrementX` (47 R641). -/
def State.incrementX (s : State) : State := s.scroll fun v _ => incX v
/-- `incrementY` (47 R642). -/
def State.incrementY (s : State) : State := s.scroll fun v _ => incY v
/-- `resetX` (47 R643). -/
def State.resetX (s : State) : State := s.scroll copyX
/-- `resetY` (47 R644). -/
def State.resetY (s : State) : State := s.scroll copyY

/-- The nametable address of a tile fetch (47 R645). -/
def ntAddr (v : VAddr) : PpuAddr := 0x2000#14 ||| (v &&& 0x0FFF#15).setWidth 14

/-- The attribute address of a tile fetch (47 R645). -/
def atAddr (v : VAddr) : PpuAddr :=
  0x23C0#14 ||| (v &&& 0x0C00#15).setWidth 14 ||| ((v >>> 4) &&& 0x38#15).setWidth 14 ||| ((v >>> 2) &&& 0x07#15).setWidth 14

/-- The quadrant shift within the attribute byte: 0, 2, 4 or 6 (47 R645). -/
def quadrantShift (v : VAddr) : Nat := (((v >>> 4) &&& 4#15) ||| (v &&& 2#15)).toNat

/-- The 2-bit sub-palette the attribute byte gives the tile (47 R645). -/
def subPalette (at' : Byte) (v : VAddr) : BitVec 2 := (at' >>> quadrantShift v).setWidth 2

/-- The pattern address of the low plane; the high plane is at `| 8` (47 R645). -/
def bgPatLo (base : PpuAddr) (nt : Byte) (v : VAddr) : PpuAddr :=
  base ||| (nt.setWidth 14 <<< 4) ||| ((v >>> 12) &&& 7#15).setWidth 14

/-- Bit `b` of the two planes as a colour number, the high plane's bit above the low one's (47 R645, 48 R676). -/
def planeColour (lo hi : Byte) (b : Nat) : BitVec 2 := BitVec.ofBool (hi.getLsbD b) ++ BitVec.ofBool (lo.getLsbD b)

/-- Shift 8 new pixels into the 16-pixel rolling buffer (47 R650). -/
def shiftIn (buf : Table Pixel) (new : Nat → Pixel) : Table Pixel :=
  Table.tabulate 0 16 fun j => if j < 8 then Table.read buf 0 (j + 8) else new (j - 8)

/-- `fetchTile` (47 R650): four reads in order, 8 pixels shifted in, then `incrementX`; transparent pixels and no read while
rendering is disabled (47 R640). -/
def State.fetchTile (s : State) : State :=
  if s.ppu.renderingEnabled then
    let v := s.ppu.v
    let nt := s.ppuRead (ntAddr v)
    let att := nt.2.ppuRead (atAddr v)
    let lo := att.2.ppuRead (bgPatLo s.ppu.bgPatBase nt.1 v)
    let hi := lo.2.ppuRead (bgPatLo s.ppu.bgPatBase nt.1 v ||| 8#14)
    let new := fun i => subPalette att.1 v ++ planeColour lo.1 hi.1 (7 - i)
    ({ hi.2 with ppu := { hi.2.ppu with bgBuf := shiftIn s.ppu.bgBuf new } } : State).incrementX
  else { s with ppu := { s.ppu with bgBuf := shiftIn s.ppu.bgBuf fun _ => 0 } }

end Sys2Proof.Machine
end

