-- ==== Sys2Proof/Machine/PpuSprites.lean ====
section
/-! DEFINITION. The PPU's sprite pipeline, pixel composition and VBlank (48 R670 to R691). -/

namespace Sys2Proof.Machine

/-- `clearSecondaryOAM` (48 R671): not gated. -/
def State.clearSecondaryOAM (s : State) : State :=
  { s with ppu := { s.ppu with sec := [], secCount := 0, sprite0InSec := false } }

/-- The sprite height (48 R672). -/
def Ppu.spriteHeight (p : Ppu) : Nat := if p.spr8x16 then 16 else 8

/-- The in-range test: `0 <= s - y < h` as integers, no wrap (48 R672). -/
def inRange (line h : Nat) (y : Byte) : Bool := decide (y.toNat ≤ line) && decide (line - y.toNat < h)

/-- Where sprite evaluation stands: the next primary sprite, and the secondary OAM found so far. -/
structure EvalState where
  n : Nat
  sec : Table Byte
  secCount : Nat
  sprite0InSec : Bool
  deriving DecidableEq, Repr

/-- Copy primary sprite `n` into the secondary entry `count` (48 R673). -/
def copySprite (oam : Memory) (n count : Nat) (sec : Table Byte) : Table Byte :=
  (List.range 4).foldl (fun t j => Table.write t 0xFF#8 (4 * count + j) (Table.read oam 0 (4 * n + j))) sec

/-- Phase 1 of the evaluation (48 R673): up to 8 sprites in primary order; the first argument counts the turns left. -/
def evalPhase1 (oam : Memory) (line h : Nat) : Nat → EvalState → EvalState
  | 0, e => e
  | k + 1, e =>
    if e.n < 64 ∧ e.secCount < 8 then
      let e' : EvalState :=
        if inRange line h (Table.read oam 0 (4 * e.n)) then
          { n := e.n + 1, sec := copySprite oam e.n e.secCount e.sec, secCount := e.secCount + 1
            sprite0InSec := e.sprite0InSec || decide (e.n = 0) }
        else { e with n := e.n + 1 }
      evalPhase1 oam line h k e'
    else e

/-- Phase 2 of the evaluation, the overflow search with the hardware's bug: `m` advances together with `n` (48 R673). Answers
whether an overflow was found and the final `n` and `m`; the first argument counts the turns left. -/
def evalPhase2 (oam : Memory) (line h : Nat) : Nat → Nat → Nat → Bool × Nat × Nat
  | 0, n, m => (false, n, m)
  | k + 1, n, m =>
    if n < 64 then
      if inRange line h (Table.read oam 0 (4 * n + m)) then (true, n + 1, m)
      else evalPhase2 oam line h k (n + 1) ((m + 1) % 4)
    else (false, n, m)

/-- `evaluateSprites(s)` (48 R673): nothing while rendering is disabled. -/
def State.evaluateSprites (s : State) (line : Nat) : State :=
  if s.ppu.renderingEnabled then
    let h := s.ppu.spriteHeight
    let e := evalPhase1 s.ppu.oam line h 64
      { n := 0, sec := s.ppu.sec, secCount := s.ppu.secCount, sprite0InSec := s.ppu.sprite0InSec }
    let o := evalPhase2 s.ppu.oam line h 64 e.n 0
    { s with ppu := { s.ppu with
        sec := e.sec
        secCount := e.secCount
        sprite0InSec := e.sprite0InSec
        spriteOverflow := s.ppu.spriteOverflow || o.1
        oamAddr := BitVec.ofNat 8 (4 * o.2.1 + o.2.2) } }
  else s

/-- `clearSpriteLayers` (48 R674): not gated. -/
def State.clearSpriteLayers (s : State) : State :=
  { s with ppu := { s.ppu with layerBehind := [], layerSpr0 := [], layerFront := [] } }

/-- The row of a sprite's pattern shown on the line after `line` (48 R675): `(s - y) & (h - 1)`, flipped over the whole height. -/
def spriteRow (line h : Nat) (y attr : Byte) : Nat :=
  let row := (line + 256 - y.toNat) % h
  if attr.getLsbD 7 then h - 1 - row else row

/-- The pattern address of a sprite row's low plane; the high plane is at `| 8` (48 R675). -/
def spriteAddr (p : Ppu) (line : Nat) (y tile attr : Byte) : PpuAddr :=
  let row := BitVec.ofNat 14 (spriteRow line p.spriteHeight y attr)
  if p.spr8x16 then
    ((tile &&& 1#8).setWidth 14 <<< 12) ||| ((tile &&& 0xFE#8).setWidth 14 <<< 4) ||| ((row &&& 8#14) <<< 1) ||| (row &&& 7#14)
  else p.sprPatBase ||| (tile.setWidth 14 <<< 4) ||| row

/-- A pixel is opaque when its colour number is not 0 (48 R682). -/
def opaquePixel (p : Pixel) : Bool := p &&& 3#4 != 0#4

/-- Draw the 8 pixels of a sprite row into a layer, keeping pixels already opaque and cutting at the right edge (48 R676). -/
def drawRow (layer : Table Pixel) (attr : Byte) (xpos : Nat) (lo hi : Byte) : Table Pixel :=
  (List.range 8).foldl (fun t j =>
    let bit := if attr.getLsbD 6 then j else 7 - j
    let colour := planeColour lo hi bit
    if colour ≠ 0#2 ∧ xpos + j ≤ 255 ∧ opaquePixel (Table.read t 0 (xpos + j)) = false then
      Table.write t 0 (xpos + j) (attr.setWidth 2 ++ colour)
    else t) layer

/-- `fetchSprite(i, s)` (48 R676): nothing while rendering is disabled or for an unused entry. -/
def State.fetchSprite (s : State) (i line : Nat) : State :=
  if s.ppu.renderingEnabled = true ∧ i < s.ppu.secCount then
    let y := Table.read s.ppu.sec 0xFF#8 (4 * i)
    let tile := Table.read s.ppu.sec 0xFF#8 (4 * i + 1)
    let attr := Table.read s.ppu.sec 0xFF#8 (4 * i + 2)
    let xpos := (Table.read s.ppu.sec 0xFF#8 (4 * i + 3)).toNat
    let addr := spriteAddr s.ppu line y tile attr
    let lo := s.ppuRead addr
    let hi := lo.2.ppuRead (addr ||| 8#14)
    let t := hi.2
    if s.ppu.sprite0InSec = true ∧ i = 0 then
      { t with ppu := { t.ppu with layerSpr0 := drawRow t.ppu.layerSpr0 attr xpos lo.1 hi.1 } }
    else if attr.getLsbD 5 then
      { t with ppu := { t.ppu with layerBehind := drawRow t.ppu.layerBehind attr xpos lo.1 hi.1 } }
    else { t with ppu := { t.ppu with layerFront := drawRow t.ppu.layerFront attr xpos lo.1 hi.1 } }
  else s

/-- The background pixel shown at `px`, after show flag and left clipping (48 R681, R684). -/
def Ppu.bgPixel (p : Ppu) (px i : Nat) : Pixel :=
  if p.showBg && (p.showBgLeft || decide (8 ≤ px)) then Table.read p.bgBuf 0 (i + p.x.toNat) else 0

/-- A sprite layer's pixel shown at `px`, after show flag and left clipping (48 R681). -/
def Ppu.sprPixel (p : Ppu) (layer : Table Pixel) (px : Nat) : Pixel :=
  if p.showSpr && (p.showSprLeft || decide (8 ≤ px)) then Table.read layer 0 px else 0

/-- The colour of a composed pixel: front, sprite 0, background, behind, backdrop (48 R680, R682, R684). -/
def Ppu.composedColour (p : Ppu) (bg sB s0 sF : Pixel) : Colour :=
  if opaquePixel sF then Table.read p.sprPal 0 sF.toNat
  else if opaquePixel s0 then Table.read p.sprPal 0 s0.toNat
  else if opaquePixel bg then Table.read p.bgPal 0 bg.toNat
  else if opaquePixel sB then Table.read p.sprPal 0 sB.toNat
  else Table.read p.bgPal 0 0

/-- The output pixel of a colour (48 R683). -/
def Ppu.outputPixel (p : Ppu) (m : TvMode) (c : Colour) : FramePixel :=
  BitVec.ofBool p.emphB ++ BitVec.ofBool (p.emphG m) ++ BitVec.ofBool (p.emphR m) ++ (if p.grayscale then c &&& 0x30#6 else c)

/-- A pixel of the picture (10 R134). -/
def Picture.pixel (f : Picture) (row px : Nat) : FramePixel := Table.read (Table.read f [] row) 0 px

/-- Write a pixel of the picture (10 R134). -/
def Picture.setPixel (f : Picture) (row px : Nat) (c : FramePixel) : Picture :=
  Table.write f [] row (Table.write (Table.read f [] row) 0 px c)

/-- Compose pixel `i` of group `k` of a scanline (48 R684, R686). -/
def State.renderPixel (s : State) (line k i : Nat) : State :=
  let px := 8 * k + i
  let bg := s.ppu.bgPixel px i
  let sB := s.ppu.sprPixel s.ppu.layerBehind px
  let s0 := s.ppu.sprPixel s.ppu.layerSpr0 px
  let sF := s.ppu.sprPixel s.ppu.layerFront px
  { s with ppu := { s.ppu with
      sprite0Hit := s.ppu.sprite0Hit || (opaquePixel s0 && opaquePixel bg)
      frame := Picture.setPixel s.ppu.frame line px
        (s.ppu.outputPixel s.params.tvMode (s.ppu.composedColour bg sB s0 sF)) } }

/-- `renderTile(s, k)` (48 R684): not gated. -/
def State.renderTile (s : State) (line k : Nat) : State :=
  (List.range 8).foldl (fun s i => s.renderPixel line k i) s

/-- `doVBlank()` (48 R690): the flag, and an NMI entry if enabled. -/
def State.doVBlank (s : State) : State :=
  let t : State := { s with ppu := { s.ppu with vblank := true } }
  if t.ppu.nmiEnable then t.doNMI else t

/-- `endVBlank()` (48 R691). -/
def State.endVBlank (s : State) : State :=
  { s with ppu := { s.ppu with
      sprite0Hit := false, spriteOverflow := false, vblank := false
      renderingEnabled := s.ppu.showBg || s.ppu.showSpr } }

end Sys2Proof.Machine
end

