-- ==== Sys2Proof/Machine/Scheduler.lean ====
section
/-! DEFINITION. The Scheduler: the schedule of every scanline, one schedule entry, the end of a line and of a frame
(49 R700 to R730). -/

namespace Sys2Proof.Machine

/-- An operation of the schedule (49 R704); the scanline is the one the Scheduler is on. -/
inductive SchedOp where
  | clearSecondaryOAM
  | evaluateSprites
  | clearSpriteLayers
  | fetchSprite (i : Nat)
  | renderTile (k : Nat)
  | fetchTile
  | incrementY
  | resetX
  | resetY
  | frameDone
  | doVBlank
  | endVBlank
  deriving DecidableEq, Repr

/-- A schedule entry: its time in half-dots from dot 0 of the scanline, and its operations in order (49 R704). -/
structure Entry where
  at6 : Nat
  ops : List SchedOp
  deriving DecidableEq, Repr

/-- The entries of the tile steps `k = first … first + n - 1` of a visible scanline (49 R710). -/
def renderEntries (first n : Nat) : List Entry :=
  (List.range n).map fun j => ⟨16 * (first + j), [.renderTile (first + j), .fetchTile]⟩

/-- The entries of the tile steps of the pre-render line (49 R715). -/
def fetchEntries (first n : Nat) : List Entry := (List.range n).map fun j => ⟨16 * (first + j), [.fetchTile]⟩

/-- The entries of the sprite fetches `i = first … first + n - 1`, with the operations `pre` before each (49 R710, R715). -/
def spriteEntries (pre : List SchedOp) (first n : Nat) : List Entry :=
  (List.range n).map fun j => ⟨512 + 16 * (first + j), pre ++ [.fetchSprite (first + j)]⟩

/-- `SCHED(s)` of a visible scanline: 42 entries (49 R710). -/
def visibleSched : List Entry :=
  [⟨0, [.clearSecondaryOAM, .renderTile 0, .fetchTile]⟩]
    ++ renderEntries 1 7
    ++ [⟨128, [.evaluateSprites, .renderTile 8, .fetchTile]⟩]
    ++ renderEntries 9 22
    ++ [⟨496, [.renderTile 31, .fetchTile, .incrementY, .resetX]⟩]
    ++ spriteEntries [.clearSpriteLayers] 0 1
    ++ spriteEntries [] 1 7
    ++ [⟨640, [.fetchTile]⟩, ⟨656, [.fetchTile]⟩]

/-- `SCHED(261)`, the pre-render line: 43 entries (49 R715). -/
def preRenderSched : List Entry :=
  [⟨0, [.endVBlank, .clearSecondaryOAM, .fetchTile]⟩]
    ++ fetchEntries 1 30
    ++ [⟨496, [.fetchTile, .incrementY, .resetX]⟩]
    ++ spriteEntries [.clearSpriteLayers] 0 1
    ++ spriteEntries [] 1 2
    ++ spriteEntries [.resetY] 3 4
    ++ spriteEntries [] 7 1
    ++ [⟨640, [.fetchTile]⟩, ⟨656, [.fetchTile]⟩, ⟨681, []⟩]

/-- `SCHED(s)` (49 R710, R713, R714, R715). -/
def sched (line : Nat) : List Entry :=
  if line < 240 then visibleSched
  else if line = 240 then [⟨0, [.frameDone]⟩]
  else if line = 241 then [⟨0, [.doVBlank]⟩]
  else if line = 261 then preRenderSched
  else [⟨0, []⟩]

/-- `LINE6(s)` (49 R700). -/
def line6 (line : Nat) : Nat := if line = 261 then 681 else 682

/-- The entry the Scheduler is at. A position past the end of a schedule, which no run reaches, is an empty entry at the end of
the line (log 10). -/
def State.entry (s : State) : Entry := ((sched s.scanline)[s.pos]?).getD ⟨681, []⟩

/-- Perform one operation of an entry. -/
def State.perform (s : State) : SchedOp → State
  | .clearSecondaryOAM => s.clearSecondaryOAM
  | .evaluateSprites => s.evaluateSprites s.scanline
  | .clearSpriteLayers => s.clearSpriteLayers
  | .fetchSprite i => s.fetchSprite i s.scanline
  | .renderTile k => s.renderTile s.scanline k
  | .fetchTile => s.fetchTile
  | .incrementY => s.incrementY
  | .resetX => s.resetX
  | .resetY => s.resetY
  | .frameDone => { s with framesDone := s.framesDone + 1, lastFrame := s.ppu.frame }
  | .doVBlank => s.doVBlank
  | .endVBlank => s.endVBlank

/-- `endFrame()` (49 R730). -/
def State.endFrame (s : State) : State :=
  let k := s.cycleOffset6 / 6
  { s with
    cycle := s.cycle - k
    cycleOffset6 := s.cycleOffset6 - 6 * k
    scanline := 0
    frameCount := s.frameCount + 1 }

/-- The end of a scanline (49 R705, R706). -/
def State.endLine (s : State) : State :=
  let t : State :=
    { s with cycleOffset6 := s.cycleOffset6 + line6 s.scanline, pos := 0, scanline := s.scanline + 1 }
  if t.scanline = 262 then t.endFrame else t

/-- Move to the next entry, or to the next line after the last (49 R706). -/
def State.advance (s : State) : State :=
  if s.pos + 1 < (sched s.scanline).length then { s with pos := s.pos + 1 } else s.endLine

/-- A PPU step: the entry's operations in the order listed, then the next position (49 R706). -/
def State.ppuStep (s : State) : State := (s.entry.ops.foldl State.perform s).advance

/-- Whether the next machine step is the CPU's: it has not passed the entry's time (49 R706). -/
def State.cpuDue (s : State) : Bool := decide (6 * s.cycle ≤ s.entry.at6 + s.cycleOffset6)

end Sys2Proof.Machine
end

