-- ==== Sys2Proof/Machine/Step.lean ====
section
/-! DEFINITION. One step of the whole machine (49 R706, 60 R812). -/

namespace Sys2Proof.Machine

/-- The audio unit advances by the cycles the CPU step took (93 U9, log 8); nothing else changes. -/
def State.tickApu (before after : State) : State :=
  { after with apu := after.apu.doCycles (after.cycle - before.cycle) }

/-- A CPU step: one whole instruction (30 R302). -/
def State.cpuStep (s : State) : Result :=
  match exec s.fetch.1 s.fetch.2 with
  | .next t => .next (s.tickApu t)
  | .fault r => .fault r
  | .refused r => .refused r

/-- The machine's own step: one CPU instruction if the CPU has not passed the next entry's time, else that entry (49 R706). -/
def State.machineStep (s : State) : Result := if s.cpuDue then s.cpuStep else .next s.ppuStep

/-- `powerOn()` called by the host while the machine runs: the core is created anew, the collaborators, the parameters and what
the sink has received are kept (70 R900, log 15). -/
def State.rePowerOn (s : State) : State :=
  { State.powerOn s.params s.cart s.apu s.pad0 s.pad1 with
    agenda := s.agenda, framesDone := s.framesDone, lastFrame := s.lastFrame }

/-- One transition: the environment's next call if it makes one here (60 R812), else the machine's own step. -/
def step (s : State) : Host.Outcome State Fault Refusal :=
  match s.agenda with
  | [] => s.machineStep
  | .step :: rest => ({ s with agenda := rest } : State).machineStep
  | .irq :: rest => .next ({ s with agenda := rest } : State).doIRQ
  | .reset :: rest => .next ({ s with agenda := rest } : State).doReset
  | .powerOn :: rest => .next ({ s with agenda := rest } : State).rePowerOn

/-- The agenda with a machine step due next: unchanged unless an environment call stands first (log 6). -/
def stepNext : List HostCall → List HostCall
  | [] => []
  | .step :: rest => .step :: rest
  | c :: rest => .step :: c :: rest

/-- `s` made ready so that the very next `step` fetches and runs the instruction whose bits are `w`, numbered as the opcode table
numbers them: its bytes where the CPU fetches, the CPU's turn before the next schedule entry, and no environment call first
(log 6). -/
def State.withFetchWord (s : State) (nbits w : Nat) : State :=
  let t := s.placeBytes (tableWordBytes nbits w)
  { t with
    cycle := if t.cpuDue then t.cycle else (t.entry.at6 + t.cycleOffset6) / 6
    agenda := stepNext t.agenda }

end Sys2Proof.Machine
end

