-- ==== Sys2Proof/Machine/HostLoop.lean ====
section
/-! DEFINITION. The loops the spec writes over the machine's step, with fuel (49 R701, R703), and the host's pacing policy
(70 R940 to R943), which is host software beside the machine (00 R5, log 16). None of them adds behaviour to the step. -/

namespace Sys2Proof.Machine

/-- `doInstructions(limit)`: instructions while `6 * cycle <= limit6 + cycleOffset6` (49 R701). `none` when the fuel runs out.
DESIGN CHOICE (log 22): the environment makes no call between its instructions, where 49 R702 and 60 R812 leave open whether one
comes; the agenda is neither read nor used up here. `step` and `runFrame` take the agenda's calls at every such boundary. -/
def State.doInstructions (limit6 : Nat) : Nat → State → Option Result
  | 0, _ => none
  | k + 1, s =>
    if 6 * s.cycle ≤ limit6 + s.cycleOffset6 then
      match s.cpuStep with
      | .next t => t.doInstructions limit6 k
      | r => some r
    else some (.next s)

/-- `runFrame()`: steps until one has performed `endFrame()` (49 R703). `none` when the fuel runs out. -/
def State.runFrame : Nat → State → Option Result
  | 0, _ => none
  | k + 1, s =>
    match step s with
    | .next t => if t.frameCount = s.frameCount + 1 then some (.next t) else t.runFrame k
    | r => some r

/-- Pacing state (70 R940); times in thirds of a millisecond, in which `FRAME_MS` is 50. -/
structure Pacing where
  last : Int
  delta : Int
  paused : Bool
  deriving DecidableEq, Repr

/-- `FRAME_MS = 1000 / 60` in thirds of a millisecond (70 R940). -/
def frameThirds : Int := 50

/-- What one host callback does: how many frames are run and discarded, and whether one more is run and shown. -/
structure PacingAction where
  discarded : Nat
  shown : Bool
  deriving DecidableEq, Repr

/-- `onHostFrame(now)` (70 R943): paused, nothing; more than 2000 ms behind, pause and run nothing; else a frame is discarded
for every `FRAME_MS` above one, and one is shown. -/
def Pacing.onHostFrame (q : Pacing) (now : Int) : Pacing × PacingAction :=
  if q.paused then (q, ⟨0, false⟩)
  else
    let delta := q.delta + (now - q.last) - frameThirds
    if 6000 < delta then (⟨now, 0, true⟩, ⟨0, false⟩)
    else
      let drops := (delta - 1).toNat / 50
      (⟨now, delta - 50 * drops, false⟩, ⟨drops, true⟩)

end Sys2Proof.Machine
end

