-- ==== Sys2Proof/Safety.lean ====
section
/-! DEFINITION. What a run must keep (the invariants the spec states or its rules preserve) and what counts as a safe run. -/

namespace Sys2Proof.Machine

/-- Every memory is in its canonical form, with no cell outside its size (20 R201, R238; 10 R128 to R134). -/
structure Ppu.MemoriesWf (p : Ppu) : Prop where
  ciram : Memory.wf 0x800 p.ciram = true
  oam : Memory.wf 0x100 p.oam = true
  sec : Table.wf 0xFF#8 32 p.sec = true
  bgPal : Table.wf 0#6 16 p.bgPal = true
  sprPal : Table.wf 0#6 16 p.sprPal = true
  bgBuf : Table.wf 0#4 16 p.bgBuf = true
  layerBehind : Table.wf 0#4 256 p.layerBehind = true
  layerSpr0 : Table.wf 0#4 256 p.layerSpr0 = true
  layerFront : Table.wf 0#4 256 p.layerFront = true
  frame : Table.wf [] 240 p.frame = true
  rows : ∀ row, Table.wf 0#9 256 (Table.read p.frame [] row) = true

/-- The cartridge's memories are in canonical form (20 R238). -/
def Cart.MemoriesWf : Cart → Prop
  | .reference r => Memory.wf 0x8000 r.prg = true ∧ Memory.wf 0x2000 r.chr = true
  | .external _ => True

/-- The Scheduler's place is legal (10 R140), and `cycleOffset6` is the time of dot 0 of the scanline, counted from a frame start
of 0 or 3 half-dots (49 R730, R731). -/
structure State.SchedulerWf (s : State) : Prop where
  scanline : s.scanline < 262
  pos : s.pos < (sched s.scanline).length
  offset : s.cycleOffset6 = 682 * s.scanline ∨ s.cycleOffset6 = 682 * s.scanline + 3

/-- The invariant of the machine: canonical memories, a legal schedule place, at most 8 secondary entries (10 R130), no storage
behind the shared palette entries (10 R131), and the rendering latch equal to its definition (10 R127, 92 D21). -/
structure State.Inv (s : State) : Prop where
  ram : Memory.wf 0x800 s.ram = true
  ppu : s.ppu.MemoriesWf
  cart : s.cart.MemoriesWf
  sched : s.SchedulerWf
  secCount : s.ppu.secCount ≤ 8
  sharedPalette : ∀ k, k % 4 = 0 → Table.read s.ppu.sprPal 0 k = 0
  rendering : s.ppu.renderingEnabled = (s.ppu.showBg || s.ppu.showSpr)

/-- `t` differs from `s` at most by the side effects of CPU bus reads (20 R223): PPU `v`, `w`, `vblank` and `readBuf`, and the
collaborators' own state, of which the reference cartridge's never changes by a read. No register of the CPU, no byte of a
memory, no Scheduler state and no parameter differs. -/
structure BusReadFrame (s t : State) : Prop where
  core : t = { s with ppu := t.ppu, cart := t.cart, apu := t.apu, pad0 := t.pad0, pad1 := t.pad1 }
  ppu : t.ppu = { s.ppu with v := t.ppu.v, w := t.ppu.w, vblank := t.ppu.vblank, readBuf := t.ppu.readBuf }
  cart : ∀ r, s.cart = .reference r → t.cart = .reference r

/-- `t` differs from `s` at most by one CPU bus write to `ea` (20 R205): no register of the CPU, no Scheduler state, no parameter;
of work RAM only the byte `ea` selects; of a reference cartridge only CHR-RAM; of the PPU nothing unless `ea` is a PPU register
or the DMA register, and then at most what the eight registers write (46 R603 to R612, R620). -/
structure BusWriteFrame (s : State) (ea : Addr) (t : State) : Prop where
  core : t = { s with ram := t.ram, ppu := t.ppu, cart := t.cart, apu := t.apu, pad0 := t.pad0, pad1 := t.pad1 }
  ram : ∀ k, ¬(ea.toNat < 0x2000 ∧ k = ea.toNat % 0x800) → Table.read t.ram 0 k = Table.read s.ram 0 k
  prg : ∀ r, s.cart = .reference r → ∃ chr, t.cart = .reference { r with chr := chr }
  ppuElsewhere : ea.toNat < 0x2000 ∨ (0x4000 ≤ ea.toNat ∧ ea.toNat ≠ 0x4014) → t.ppu = s.ppu
  ppu : t.ppu = { s.ppu with
    v := t.ppu.v, t := t.ppu.t, x := t.ppu.x, w := t.ppu.w, ctrl := t.ppu.ctrl, mask := t.ppu.mask, vblank := t.ppu.vblank
    oamAddr := t.ppu.oamAddr, readBuf := t.ppu.readBuf, renderingEnabled := t.ppu.renderingEnabled
    ciram := t.ppu.ciram, oam := t.ppu.oam, bgPal := t.ppu.bgPal, sprPal := t.ppu.sprPal }

/-- A run of `n` steps that stops nowhere. -/
def State.runsFor : Nat → State → Prop
  | 0, _ => True
  | n + 1, s => ∃ t, step s = .next t ∧ t.runsFor n

end Sys2Proof.Machine
end

