-- ==== Sys2Proof/Certificates/Slice0/Vocabulary.lean ====
section
/-! DEFINITION. The words the statements of Obligations.lean are written in: the forms of each mnemonic with their opcode bytes
(files 40 to 44), the costs of the modes (30 R330 to R333), and the shapes of an instruction's rule. -/

namespace Sys2Proof.Claims

open Sys2Proof.Machine

/-- An operand form: immediate, accumulator, or a mode with an effective address. -/
inductive Form where
  | imm (v : Byte)
  | acc
  | mem (m : Ea)
  deriving DecidableEq, Repr

/-- The forms of LDA and their opcode bytes (R400). -/
def ldaRow : Form → Option (Instr × Byte)
  | .mem (.indx z) => some (.ldaIndX z, 0xA1)
  | .mem (.zp z) => some (.ldaZp z, 0xA5)
  | .imm v => some (.ldaImm v, 0xA9)
  | .mem (.abs a) => some (.ldaAbs a, 0xAD)
  | .mem (.indy z) => some (.ldaIndY z, 0xB1)
  | .mem (.zpx z) => some (.ldaZpX z, 0xB5)
  | .mem (.absy a) => some (.ldaAbsY a, 0xB9)
  | .mem (.absx a) => some (.ldaAbsX a, 0xBD)
  | _ => none

/-- The forms of LDX and their opcode bytes (R401). -/
def ldxRow : Form → Option (Instr × Byte)
  | .imm v => some (.ldxImm v, 0xA2)
  | .mem (.zp z) => some (.ldxZp z, 0xA6)
  | .mem (.abs a) => some (.ldxAbs a, 0xAE)
  | .mem (.zpy z) => some (.ldxZpY z, 0xB6)
  | .mem (.absy a) => some (.ldxAbsY a, 0xBE)
  | _ => none

/-- The forms of LDY and their opcode bytes (R402). -/
def ldyRow : Form → Option (Instr × Byte)
  | .imm v => some (.ldyImm v, 0xA0)
  | .mem (.zp z) => some (.ldyZp z, 0xA4)
  | .mem (.abs a) => some (.ldyAbs a, 0xAC)
  | .mem (.zpx z) => some (.ldyZpX z, 0xB4)
  | .mem (.absx a) => some (.ldyAbsX a, 0xBC)
  | _ => none

/-- The forms of STA and their opcode bytes (R403). -/
def staRow : Form → Option (Instr × Byte)
  | .mem (.indx z) => some (.staIndX z, 0x81)
  | .mem (.zp z) => some (.staZp z, 0x85)
  | .mem (.abs a) => some (.staAbs a, 0x8D)
  | .mem (.indy z) => some (.staIndY z, 0x91)
  | .mem (.zpx z) => some (.staZpX z, 0x95)
  | .mem (.absy a) => some (.staAbsY a, 0x99)
  | .mem (.absx a) => some (.staAbsX a, 0x9D)
  | _ => none

/-- The forms of STX and their opcode bytes (R404). -/
def stxRow : Form → Option (Instr × Byte)
  | .mem (.zp z) => some (.stxZp z, 0x86)
  | .mem (.abs a) => some (.stxAbs a, 0x8E)
  | .mem (.zpy z) => some (.stxZpY z, 0x96)
  | _ => none

/-- The forms of STY and their opcode bytes (R405). -/
def styRow : Form → Option (Instr × Byte)
  | .mem (.zp z) => some (.styZp z, 0x84)
  | .mem (.abs a) => some (.styAbs a, 0x8C)
  | .mem (.zpx z) => some (.styZpX z, 0x94)
  | _ => none

/-- The forms of ADC and their opcode bytes (R452). -/
def adcRow : Form → Option (Instr × Byte)
  | .mem (.indx z) => some (.adcIndX z, 0x61)
  | .mem (.zp z) => some (.adcZp z, 0x65)
  | .imm v => some (.adcImm v, 0x69)
  | .mem (.abs a) => some (.adcAbs a, 0x6D)
  | .mem (.indy z) => some (.adcIndY z, 0x71)
  | .mem (.zpx z) => some (.adcZpX z, 0x75)
  | .mem (.absy a) => some (.adcAbsY a, 0x79)
  | .mem (.absx a) => some (.adcAbsX a, 0x7D)
  | _ => none

/-- The forms of SBC and their opcode bytes (R453). -/
def sbcRow : Form → Option (Instr × Byte)
  | .mem (.indx z) => some (.sbcIndX z, 0xE1)
  | .mem (.zp z) => some (.sbcZp z, 0xE5)
  | .imm v => some (.sbcImm v, 0xE9)
  | .mem (.abs a) => some (.sbcAbs a, 0xED)
  | .mem (.indy z) => some (.sbcIndY z, 0xF1)
  | .mem (.zpx z) => some (.sbcZpX z, 0xF5)
  | .mem (.absy a) => some (.sbcAbsY a, 0xF9)
  | .mem (.absx a) => some (.sbcAbsX a, 0xFD)
  | _ => none

/-- The forms of CMP and their opcode bytes (R455). -/
def cmpRow : Form → Option (Instr × Byte)
  | .mem (.indx z) => some (.cmpIndX z, 0xC1)
  | .mem (.zp z) => some (.cmpZp z, 0xC5)
  | .imm v => some (.cmpImm v, 0xC9)
  | .mem (.abs a) => some (.cmpAbs a, 0xCD)
  | .mem (.indy z) => some (.cmpIndY z, 0xD1)
  | .mem (.zpx z) => some (.cmpZpX z, 0xD5)
  | .mem (.absy a) => some (.cmpAbsY a, 0xD9)
  | .mem (.absx a) => some (.cmpAbsX a, 0xDD)
  | _ => none

/-- The forms of CPX and their opcode bytes (R456). -/
def cpxRow : Form → Option (Instr × Byte)
  | .imm v => some (.cpxImm v, 0xE0)
  | .mem (.zp z) => some (.cpxZp z, 0xE4)
  | .mem (.abs a) => some (.cpxAbs a, 0xEC)
  | _ => none

/-- The forms of CPY and their opcode bytes (R457). -/
def cpyRow : Form → Option (Instr × Byte)
  | .imm v => some (.cpyImm v, 0xC0)
  | .mem (.zp z) => some (.cpyZp z, 0xC4)
  | .mem (.abs a) => some (.cpyAbs a, 0xCC)
  | _ => none

/-- The forms of INC and their opcode bytes (R458). -/
def incRow : Form → Option (Instr × Byte)
  | .mem (.zp z) => some (.incZp z, 0xE6)
  | .mem (.abs a) => some (.incAbs a, 0xEE)
  | .mem (.zpx z) => some (.incZpX z, 0xF6)
  | .mem (.absx a) => some (.incAbsX a, 0xFE)
  | _ => none

/-- The forms of DEC and their opcode bytes (R461). -/
def decRow : Form → Option (Instr × Byte)
  | .mem (.zp z) => some (.decZp z, 0xC6)
  | .mem (.abs a) => some (.decAbs a, 0xCE)
  | .mem (.zpx z) => some (.decZpX z, 0xD6)
  | .mem (.absx a) => some (.decAbsX a, 0xDE)
  | _ => none

/-- The forms of AND and their opcode bytes (R480). -/
def andRow : Form → Option (Instr × Byte)
  | .mem (.indx z) => some (.andIndX z, 0x21)
  | .mem (.zp z) => some (.andZp z, 0x25)
  | .imm v => some (.andImm v, 0x29)
  | .mem (.abs a) => some (.andAbs a, 0x2D)
  | .mem (.indy z) => some (.andIndY z, 0x31)
  | .mem (.zpx z) => some (.andZpX z, 0x35)
  | .mem (.absy a) => some (.andAbsY a, 0x39)
  | .mem (.absx a) => some (.andAbsX a, 0x3D)
  | _ => none

/-- The forms of ORA and their opcode bytes (R481). -/
def oraRow : Form → Option (Instr × Byte)
  | .mem (.indx z) => some (.oraIndX z, 0x01)
  | .mem (.zp z) => some (.oraZp z, 0x05)
  | .imm v => some (.oraImm v, 0x09)
  | .mem (.abs a) => some (.oraAbs a, 0x0D)
  | .mem (.indy z) => some (.oraIndY z, 0x11)
  | .mem (.zpx z) => some (.oraZpX z, 0x15)
  | .mem (.absy a) => some (.oraAbsY a, 0x19)
  | .mem (.absx a) => some (.oraAbsX a, 0x1D)
  | _ => none

/-- The forms of EOR and their opcode bytes (R482). -/
def eorRow : Form → Option (Instr × Byte)
  | .mem (.indx z) => some (.eorIndX z, 0x41)
  | .mem (.zp z) => some (.eorZp z, 0x45)
  | .imm v => some (.eorImm v, 0x49)
  | .mem (.abs a) => some (.eorAbs a, 0x4D)
  | .mem (.indy z) => some (.eorIndY z, 0x51)
  | .mem (.zpx z) => some (.eorZpX z, 0x55)
  | .mem (.absy a) => some (.eorAbsY a, 0x59)
  | .mem (.absx a) => some (.eorAbsX a, 0x5D)
  | _ => none

/-- The forms of BIT and their opcode bytes (R483). -/
def bitRow : Form → Option (Instr × Byte)
  | .mem (.zp z) => some (.bitZp z, 0x24)
  | .mem (.abs a) => some (.bitAbs a, 0x2C)
  | _ => none

/-- The forms of ASL and their opcode bytes (R484). -/
def aslRow : Form → Option (Instr × Byte)
  | .mem (.zp z) => some (.aslZp z, 0x06)
  | .acc => some (.aslAcc, 0x0A)
  | .mem (.abs a) => some (.aslAbs a, 0x0E)
  | .mem (.zpx z) => some (.aslZpX z, 0x16)
  | .mem (.absx a) => some (.aslAbsX a, 0x1E)
  | _ => none

/-- The forms of LSR and their opcode bytes (R485). -/
def lsrRow : Form → Option (Instr × Byte)
  | .mem (.zp z) => some (.lsrZp z, 0x46)
  | .acc => some (.lsrAcc, 0x4A)
  | .mem (.abs a) => some (.lsrAbs a, 0x4E)
  | .mem (.zpx z) => some (.lsrZpX z, 0x56)
  | .mem (.absx a) => some (.lsrAbsX a, 0x5E)
  | _ => none

/-- The forms of ROL and their opcode bytes (R486). -/
def rolRow : Form → Option (Instr × Byte)
  | .mem (.zp z) => some (.rolZp z, 0x26)
  | .acc => some (.rolAcc, 0x2A)
  | .mem (.abs a) => some (.rolAbs a, 0x2E)
  | .mem (.zpx z) => some (.rolZpX z, 0x36)
  | .mem (.absx a) => some (.rolAbsX a, 0x3E)
  | _ => none

/-- The forms of ROR and their opcode bytes (R487). -/
def rorRow : Form → Option (Instr × Byte)
  | .mem (.zp z) => some (.rorZp z, 0x66)
  | .acc => some (.rorAcc, 0x6A)
  | .mem (.abs a) => some (.rorAbs a, 0x6E)
  | .mem (.zpx z) => some (.rorZpX z, 0x76)
  | .mem (.absx a) => some (.rorAbsX a, 0x7E)
  | _ => none

/-- The forms of JMP and their opcode bytes (R510). -/
def jmpRow : Form → Option (Instr × Byte)
  | .mem (.abs a) => some (.jmpAbs a, 0x4C)
  | .mem (.ind a) => some (.jmpInd a, 0x6C)
  | _ => none

/-- The operand bytes that follow the opcode byte, low byte first (30 R300). -/
def Form.bytes : Form → List Byte
  | .acc => []
  | .imm v => [v]
  | .mem (.zp z) | .mem (.zpx z) | .mem (.zpy z) | .mem (.indx z) | .mem (.indy z) => [z]
  | .mem (.abs a) | .mem (.absx a) | .mem (.absy a) | .mem (.ind a) =>
    [BitVec.ofNat 8 (a.toNat % 256), BitVec.ofNat 8 (a.toNat / 256)]

/-- The cost of a read instruction by its form: BASE and the page-cross penalty (30 R320, R330, R331). -/
def Form.readCost (f : Form) (s : State) : Nat :=
  match f with
  | .imm _ | .acc => 2
  | .mem m =>
    let cross := if (s.resolve m).crossed then 1 else 0
    match m with
    | .zp _ => 3
    | .zpx _ | .zpy _ | .abs _ => 4
    | .absx _ | .absy _ => 4 + cross
    | .indx _ => 6
    | .indy _ => 5 + cross
    | .ind _ => 5

/-- The cost of a store by its mode, the DMA stall aside: never a penalty (30 R320, R331). -/
def storeCost : Ea → Nat
  | .zp _ => 3
  | .zpx _ | .zpy _ | .abs _ => 4
  | .absx _ | .absy _ => 5
  | .indx _ | .indy _ => 6
  | .ind _ => 0

/-- The cost of a read-modify-write instruction on memory by its mode, the DMA stall aside (30 R320, R331). -/
def modifyCost : Ea → Nat
  | .zp _ => 5
  | .zpx _ | .abs _ => 6
  | .absx _ => 7
  | _ => 0

/-- The extra cycles of a store to `ea` by an instruction that starts in `s` (46 R620). -/
def stall (s : State) (ea : Addr) : Nat := if ea = 0x4014#16 then (if s.cycle % 2 = 1 then 514 else 513) else 0

/-- `setZN(b)` on the flags (10 R112). -/
def zn (p : Status) (b : Byte) : Status := { p with z := decide (b = 0), n := b.msb }

/-- The operand value `M` of a read instruction and the state after the reads that gave it (30 R317). -/
def Form.operand (f : Form) (s : State) : Byte × State :=
  match f with
  | .imm v => (v, s)
  | .acc => (s.a, s)
  | .mem m => (s.resolve m).st.rd (s.resolve m).ea

/-- The rule of a read instruction: its forms are encoded as the table says; it completes in every state, with `result` of the
operand and of the state after the operand reads, and its cost; and the operand reads change nothing but what a bus read can. -/
def ReadRule (row : Form → Option (Instr × Byte)) (result : Byte → State → State) : Prop :=
  ∀ f i op, row f = some (i, op) → encode i = op :: f.bytes ∧
    ∀ s, exec i s = .next { result (f.operand s).1 (f.operand s).2 with cycle := s.cycle + f.readCost s } ∧
      BusReadFrame s (f.operand s).2

/-- The rule of a store: its forms are encoded as the table says; it completes in every state with one bus write of the register to
the effective address, which is found without a side effect, and its cost; of work RAM exactly the byte that address selects
changes; and nothing else changes but what a bus write to that address can. -/
def StoreRule (row : Form → Option (Instr × Byte)) (reg : State → Byte) : Prop :=
  ∀ f i op, row f = some (i, op) → encode i = op :: f.bytes ∧ ∃ m, f = .mem m ∧
    ∀ s, (s.resolve m).st = s ∧
      exec i s = .next { s.wr (s.resolve m).ea (reg s) with
        cycle := s.cycle + storeCost m + stall s (s.resolve m).ea } ∧
      BusWriteFrame s (s.resolve m).ea (s.wr (s.resolve m).ea (reg s)) ∧
      ((s.resolve m).ea.toNat < 0x2000 → ∀ k, Table.read (s.wr (s.resolve m).ea (reg s)).ram 0 k =
        if k = (s.resolve m).ea.toNat % 0x800 then reg s else Table.read s.ram 0 k)

/-- The rule of a read-modify-write instruction: its forms are encoded as the table says; on memory it completes in every state with
one read and one write of the effective address, the flags from the old byte and the old flags, and its cost, never a penalty; on
the accumulator it changes A and the flags alone, in 2 cycles. -/
def ModifyRule (row : Form → Option (Instr × Byte)) (result : Byte → Status → Byte) (flags : Byte → Status → Status) : Prop :=
  ∀ f i op, row f = some (i, op) → encode i = op :: f.bytes ∧ ∀ s,
    (f = .acc → exec i s = .next { s with a := result s.a s.p, p := flags s.a s.p, cycle := s.cycle + 2 }) ∧
    ∀ m, f = .mem m →
      let ea := (s.resolve m).ea
      let old := (s.rd ea).1
      let u := (s.rd ea).2
      (s.resolve m).st = s ∧ BusReadFrame s u ∧ BusWriteFrame u ea (u.wr ea (result old s.p)) ∧
        exec i s = .next { u.wr ea (result old s.p) with
          p := flags old s.p, cycle := s.cycle + modifyCost m + stall s ea }

/-- The rule of an implied instruction: one opcode byte, a fixed cost, and `effect` in every state. -/
def ImpliedRule (i : Instr) (op : Byte) (cost : Nat) (effect : State → State) : Prop :=
  encode i = [op] ∧ ∀ s, exec i s = .next { effect s with cycle := s.cycle + cost }

/-- The rule of a conditional branch (44 R515, 30 R309, R333): to the next instruction's address plus the signed offset, modulo
65536, when the condition holds; 2 cycles not taken, 3 taken, 4 taken to another page; nothing else changes. -/
def BranchRule (i : Byte → Instr) (op : Byte) (cond : Status → Bool) : Prop :=
  ∀ o s, encode (i o) = [op, o] ∧
    let target : Addr := BitVec.ofInt 16 (s.pc.toNat + o.toInt)
    exec (i o) s = .next { s with
      pc := if cond s.p then target else s.pc
      cycle := s.cycle +
        if cond s.p then (if s.pc.toNat / 256 = target.toNat / 256 then 3 else 4) else 2 }

/-- Work RAM of `t` is that of `s` with the bytes `bs` (at most 256) at the stack cells from `SP` downwards, the first at `SP`,
wrapping within page 1, and `SP` is lower by as many (41 R430, R438). -/
def Pushed (s t : State) (bs : List Byte) : Prop :=
  t.sp = s.sp - BitVec.ofNat 8 bs.length ∧
  (∀ j, j < bs.length → Table.read t.ram 0 (0x100 + (s.sp - BitVec.ofNat 8 j).toNat) = bs.getD j 0) ∧
  ∀ k, (∀ j, j < bs.length → k ≠ 0x100 + (s.sp - BitVec.ofNat 8 j).toNat) → Table.read t.ram 0 k = Table.read s.ram 0 k

/-- The stack byte `j` cells above `SP`, wrapping within page 1 (41 R431, R438). -/
def stackByte (s : State) (j : Nat) : Byte := Table.read s.ram 0 (0x100 + (s.sp + BitVec.ofNat 8 j).toNat)

/-- A 16-bit value from its bytes (20 R220). -/
def le16 (lo hi : Byte) : Addr := BitVec.ofNat 16 (lo.toNat + 256 * hi.toNat)

/-- `t` is `u` after `PC` has been read from the vector at `vec`, low byte first (20 R208). -/
def VectorTaken (u : State) (vec : Nat) (t : State) : Prop :=
  let lo := u.rd (BitVec.ofNat 16 vec)
  let hi := lo.2.rd (BitVec.ofNat 16 (vec + 1))
  t = { hi.2 with pc := le16 lo.1 hi.1, cycle := t.cycle } ∧ BusReadFrame u hi.2

/-- The byte an interrupt entry pushes for `P`: the flags in their places, B clear, bit 5 set (10 R103, 60 R800). -/
def entryByte (p : Status) : Byte :=
  BitVec.ofNat 8 (128 * p.n.toNat + 64 * p.v.toNat + 32 + 8 * p.d.toNat + 4 * p.i.toNat + 2 * p.z.toNat + p.c.toNat)

/-- The register `P` as a byte (10 R103, R104): the flags in their places, bits 4 and 5 set. -/
def statusByte (p : Status) : Byte :=
  BitVec.ofNat 8 (128 * p.n.toNat + 64 * p.v.toNat + 48 + 8 * p.d.toNat + 4 * p.i.toNat + 2 * p.z.toNat + p.c.toNat)

/-- The flags a pulled byte gives (10 R103, R104): bits 4 and 5 are ignored. -/
def flagsOf (b : Byte) : Status where
  n := decide (b.toNat / 128 % 2 = 1)
  v := decide (b.toNat / 64 % 2 = 1)
  d := decide (b.toNat / 8 % 2 = 1)
  i := decide (b.toNat / 4 % 2 = 1)
  z := decide (b.toNat / 2 % 2 = 1)
  c := decide (b.toNat % 2 = 1)

/-- The two bytes of an address, high byte first, as `push16` pushes them (41 R432). -/
def highLow (w : Addr) : List Byte := [BitVec.ofNat 8 (w.toNat / 256), BitVec.ofNat 8 (w.toNat % 256)]

/-- `t` is `s` after an entry that pushes `bytes`, sets `I` if `setI`, takes `PC` from `vec` and costs 7 cycles (60 R800); nothing
else changes but what the two vector reads can change. -/
def EntryTaken (s : State) (vec : Nat) (bytes : List Byte) (setI : Bool) (t : State) : Prop :=
  ∃ u, Pushed s u bytes ∧
    u = { s with ram := u.ram, sp := u.sp, p := { s.p with i := s.p.i || setI } } ∧
    VectorTaken u vec t ∧ t.cycle = s.cycle + 7

/-- The environment makes no call here: the next transition is the machine's own step (60 R812). -/
def NoCallHere (s : State) : Prop := s.agenda = [] ∨ ∃ rest, s.agenda = .step :: rest

/-- The state with the agenda's first place used up. -/
def taken (s : State) : State := { s with agenda := s.agenda.tail }

/-- The state with the D flag replaced. -/
def withD (s : State) (b : Bool) : State := { s with p := { s.p with d := b } }

/-- The coarse X, coarse Y and fine Y fields and the two nametable bits of `v` (10 R120). -/
def coarseX (v : VAddr) : Nat := v.toNat % 32
@[inherit_doc coarseX] def coarseY (v : VAddr) : Nat := v.toNat / 32 % 32
@[inherit_doc coarseX] def fineY (v : VAddr) : Nat := v.toNat / 4096
@[inherit_doc coarseX] def ntX (v : VAddr) : Nat := v.toNat / 1024 % 2
@[inherit_doc coarseX] def ntY (v : VAddr) : Nat := v.toNat / 2048 % 2

/-- The schedule of a visible scanline as the table of 49 R710 lists it. -/
def visibleEntry (k : Nat) : Entry :=
  if k = 0 then ⟨0, [.clearSecondaryOAM, .renderTile 0, .fetchTile]⟩
  else if k = 8 then ⟨128, [.evaluateSprites, .renderTile 8, .fetchTile]⟩
  else if k = 31 then ⟨496, [.renderTile 31, .fetchTile, .incrementY, .resetX]⟩
  else if k < 32 then ⟨16 * k, [.renderTile k, .fetchTile]⟩
  else if k = 32 then ⟨512, [.clearSpriteLayers, .fetchSprite 0]⟩
  else if k < 40 then ⟨512 + 16 * (k - 32), [.fetchSprite (k - 32)]⟩
  else ⟨640 + 16 * (k - 40), [.fetchTile]⟩

/-- The schedule of the pre-render line as the table of 49 R715 lists it. -/
def preRenderEntry (k : Nat) : Entry :=
  if k = 0 then ⟨0, [.endVBlank, .clearSecondaryOAM, .fetchTile]⟩
  else if k = 31 then ⟨496, [.fetchTile, .incrementY, .resetX]⟩
  else if k < 32 then ⟨16 * k, [.fetchTile]⟩
  else if k = 32 then ⟨512, [.clearSpriteLayers, .fetchSprite 0]⟩
  else if 35 ≤ k ∧ k ≤ 38 then ⟨512 + 16 * (k - 32), [.resetY, .fetchSprite (k - 32)]⟩
  else if k < 40 then ⟨512 + 16 * (k - 32), [.fetchSprite (k - 32)]⟩
  else if k = 42 then ⟨681, []⟩
  else ⟨640 + 16 * (k - 40), [.fetchTile]⟩

/-- The palette cell of a palette address, 0 to 31, with the shared entries counted in the lower half (20 R216). -/
def paletteCell (a : PpuAddr) : Nat :=
  if 16 ≤ a.toNat % 32 ∧ a.toNat % 4 = 0 then a.toNat % 32 - 16 else a.toNat % 32

/-- The cell a PPU address selects with the reference cartridge (20 R211, R216, R238), as one number: CHR below 0x2000, CIRAM from
0x2000, palette cells from 0x3F00. -/
def ppuCell (m : Mirroring) (a : PpuAddr) : Nat :=
  if 0x3F00 ≤ a.toNat then 0x3F00 + paletteCell a
  else if a.toNat < 0x2000 then a.toNat
  else 0x2000 + 0x400 * (match m with | .vertical => a.toNat / 0x400 % 2 | .horizontal => a.toNat / 0x800 % 2) + a.toNat % 0x400

/-- The primary sprites in range on a line, in OAM order (48 R672, R673). -/
def spritesInRange (oam : Memory) (line h : Nat) : List Nat :=
  (List.range 64).filter fun n =>
    let y := (Table.read oam 0 (4 * n)).toNat
    decide (y ≤ line ∧ line < y + h)

/-- A pixel read from a layer table as a number `4 * pal + colour`. -/
def pixelNat (t : Table Pixel) (k : Nat) : Nat := (Table.read t 0 k).toNat

/-- The background pixel shown at `px` after show flag and left clipping (48 R681), the buffer read at `px % 8` plus fine X. -/
def bgShown (p : Ppu) (px : Nat) : Nat :=
  if p.mask.getLsbD 3 && (p.mask.getLsbD 1 || decide (8 ≤ px)) then pixelNat p.bgBuf (px % 8 + p.x.toNat) else 0

/-- A sprite layer's pixel shown at `px` after show flag and left clipping (48 R681). -/
def sprShown (p : Ppu) (layer : Table Pixel) (px : Nat) : Nat :=
  if p.mask.getLsbD 4 && (p.mask.getLsbD 2 || decide (8 ≤ px)) then pixelNat layer px else 0

/-- The colour shown at `px` (48 R680, R682): the front-most opaque pixel's, else the backdrop. -/
def shownColour (p : Ppu) (px : Nat) : Nat :=
  if sprShown p p.layerFront px % 4 ≠ 0 then (Table.read p.sprPal 0 (sprShown p p.layerFront px)).toNat
  else if sprShown p p.layerSpr0 px % 4 ≠ 0 then (Table.read p.sprPal 0 (sprShown p p.layerSpr0 px)).toNat
  else if bgShown p px % 4 ≠ 0 then (Table.read p.bgPal 0 (bgShown p px)).toNat
  else if sprShown p p.layerBehind px % 4 ≠ 0 then (Table.read p.sprPal 0 (sprShown p p.layerBehind px)).toNat
  else (Table.read p.bgPal 0 0).toNat

/-- The output pixel of a colour (48 R683, 10 R123): emphasis blue, green, red in bits 8, 7, 6, and grayscale. -/
def outputNat (m : TvMode) (mask : Byte) (c : Nat) : Nat :=
  let bits := match m with | .ntsc => (6, 5) | .pal => (5, 6)
  256 * (mask.getLsbD 7).toNat + 128 * (mask.getLsbD bits.1).toNat + 64 * (mask.getLsbD bits.2).toNat
    + if mask.getLsbD 0 then c / 16 * 16 else c

/-- The pattern address of a sprite row's low plane (48 R675) by plain arithmetic. -/
def spriteAddrNat (p : Ppu) (line : Nat) (y tile attr : Byte) : Nat :=
  let h : Nat := if p.ctrl.getLsbD 5 then 16 else 8
  let up : Nat := (((line : Int) - (y.toNat : Int)) % (h : Int)).toNat
  let row : Nat := if attr.getLsbD 7 then h - 1 - up else up
  if p.ctrl.getLsbD 5 then 0x1000 * (tile.toNat % 2) + 16 * (tile.toNat / 2 * 2) + 16 * (row / 8) + row % 8
  else 0x1000 * (p.ctrl.getLsbD 3).toNat + 16 * tile.toNat + row

/-- The layer pixel that a sprite row of planes `lo`, `hi` with attributes `attr` at `xpos` gives at `X`, or 0 (48 R676). -/
def rowPixel (attr : Byte) (xpos : Nat) (lo hi : Byte) (px : Nat) : Nat :=
  if xpos ≤ px ∧ px < xpos + 8 ∧ px < 256 then
    let bit := if attr.getLsbD 6 then px - xpos else 7 - (px - xpos)
    let colour := 2 * (hi.toNat / 2 ^ bit % 2) + lo.toNat / 2 ^ bit % 2
    if colour = 0 then 0 else 4 * (attr.toNat % 4) + colour
  else 0

/-- A layer with a sprite row drawn into it: pixels already opaque are kept (48 R676). -/
def Drawn (old new : Table Pixel) (row : Nat → Nat) : Prop :=
  ∀ px, pixelNat new px = if pixelNat old px % 4 = 0 ∧ row px ≠ 0 then row px else pixelNat old px

/-- Bit `b` of a byte as a number. -/
def bitNat (x : Byte) (b : Nat) : Nat := x.toNat / 2 ^ b % 2

/-- The state with its outputs replaced: the picture, what the sink has received and the frame count (10 R134, R140, 20 R236). -/
def withOutputs (s : State) (frame last : Picture) (done count : Nat) : State :=
  { s with ppu := { s.ppu with frame := frame }, lastFrame := last, framesDone := done, frameCount := count }

/-- Two outcomes are the same but for the outputs of the states they hold. -/
def SameButOutputs : Result → Result → Prop
  | .next t, .next u => ∃ frame last done count, u = withOutputs t frame last done count
  | .fault r, .fault q => r = q
  | .refused r, .refused q => r = q
  | _, _ => False

end Sys2Proof.Claims
end

