-- ==== Sys2Proof/Certificates/Slice0/Obligations.lean ====
section
/-! DEFINITION. The statements of this model for the provers, from the numbered rules of spec/. A clause that rests on one of the
spec's own decisions D<n> (92_eei_decisions.md, log 1) names it and is basis derived. Opcode bytes, base costs and the 6502's and PPU's
semantics that the spec itself marks as general knowledge (93 part 2) are followed as its rules state them (log 1). -/

open Sys2Proof Sys2Proof.Machine Sys2Proof.Claims

/-- O1. Decoding the encoding of any well-formed instruction gives it back, whatever bytes follow (R300, R301, R321, R322). D6 and
D12 (which bytes are instructions) are the spec's own decisions (log 1); the illegal bytes are one constructor (log 20). -/
def Obligations.EncodedInstructionsDecodeBack : Prop :=
  ∀ (i : Instr) (rest : List Byte), i.wf = true → decode (encode i ++ rest) = .ok (i, rest)

/-- O2. The decoder loses no byte, gives only well-formed instructions, and fails only when bytes are missing (R300, R301, R320,
R322, R323). D6 and D12 (which bytes are instructions) are the spec's own decisions (log 1); the illegal bytes are one
constructor (log 20). -/
def Obligations.DecodedBytesEncodeBack : Prop :=
  (∀ bytes : List Byte,
    (∀ i rest, decode bytes = .ok (i, rest) →
      i.wf = true ∧ encode i ++ rest = bytes ∧ (encode i).length = instrLength (bytes.headD 0)) ∧
    ((∃ r, decode bytes = .ok r) ↔ bytes ≠ [] ∧ instrLength (bytes.headD 0) ≤ bytes.length)) ∧
  illegalOpcodes.length = 105 ∧ illegalOpcodes.Nodup ∧
  ∀ op b1 b2 : Byte, (∃ q, decodeOp op b1 b2 = .illegal q) ↔ op ∈ illegalOpcodes

/-- O3. Words written out from the opcode matrix decode to the instructions they stand for, one or more of every family (R300,
R303, R310, R320, R322). D6 and D12 (which bytes are instructions) are the spec's own decisions (log 1). -/
def Obligations.WrittenOutWordsDecode : Prop :=
  decode [0xA9#8, 0x80#8] = .ok (.ldaImm 0x80#8, []) ∧
  decode [0x9D#8, 0x34#8, 0x12#8] = .ok (.staAbsX 0x1234#16, []) ∧
  decode [0xBA#8] = .ok (.tsx, []) ∧
  decode [0x08#8] = .ok (.php, []) ∧
  decode [0x71#8, 0x20#8] = .ok (.adcIndY 0x20#8, []) ∧
  decode [0xD6#8, 0x10#8] = .ok (.decZpX 0x10#8, []) ∧
  decode [0x2C#8, 0x02#8, 0x20#8] = .ok (.bitAbs 0x2002#16, []) ∧
  decode [0x6A#8] = .ok (.rorAcc, []) ∧
  decode [0x6C#8, 0xFF#8, 0x02#8] = .ok (.jmpInd 0x02FF#16, []) ∧
  decode [0x20#8, 0x34#8, 0x12#8] = .ok (.jsr 0x1234#16, []) ∧
  decode [0xD0#8, 0xFD#8] = .ok (.bne 0xFD#8, []) ∧
  decode [0xF8#8] = .ok (.sed, []) ∧
  decode [0x02#8] = .ok (.illegal 0x02#8, []) ∧
  decode [0xFF#8] = .ok (.illegal 0xFF#8, [])

/-- O4. When the CPU is due and the bytes read at PC are an instruction, step is exec of it, and the audio unit advances by its
cost (R302, R701, R706, R812). The audio call is the model's choice (log 8), and so is the agenda (log 7). -/
def Obligations.StepRunsTheDecodedInstruction : Prop :=
  ∀ (s t : State) (i : Instr), i.wf = true → NoCallHere s → 6 * s.cycle ≤ s.entry.at6 + s.cycleOffset6 →
    (taken s).fetchBytes (encode i).length = (encode i, t) →
    step s = match exec i t with
      | .next v => .next { v with apu := v.apu.doCycles (v.cycle - s.cycle) }
      | .fault r => .fault r
      | .refused r => .refused r

/-- O5. Fetching from work RAM or from the reference cartridge's PRG gives the bytes there and changes PC alone (R201, R228, R302,
R238). The reference cartridge is the spec's own decision D38. -/
def Obligations.FetchReadsMemoryAndMovesOnlyPC : Prop :=
  ∀ (s : State) (r : RefCart) (n : Nat), s.cart = .reference r →
    (∀ k, k < n → (s.pc.toNat + k) % 65536 < 0x2000 ∨ 0x8000 ≤ (s.pc.toNat + k) % 65536) →
    s.fetchBytes n =
      ((List.range n).map (fun k =>
          let a := (s.pc.toNat + k) % 65536
          if a < 0x2000 then Table.read s.ram 0 (a % 0x800) else Table.read r.prg 0 (a - 0x8000)),
        { s with pc := BitVec.ofNat 16 (s.pc.toNat + n) })

/-- O6. A step is one CPU instruction while the CPU has not passed the entry's time, else that entry's operations and the next
position (D17, D20) (R700, R705, R706, R730). D16, D17 and D20 are the spec's own decisions (log 1); the agenda is the model's
(log 7). -/
def Obligations.StepIsOneInstructionOrOneEntry : Prop :=
  ∀ (s : State) (e : Entry), NoCallHere s → (sched s.scanline)[s.pos]? = some e →
    (6 * s.cycle ≤ e.at6 + s.cycleOffset6 → step s = (taken s).cpuStep) ∧
    (e.at6 + s.cycleOffset6 < 6 * s.cycle →
      let t := e.ops.foldl State.perform (taken s)
      step s = .next (
        if s.pos + 1 < (sched s.scanline).length then { t with pos := s.pos + 1 }
        else if s.scanline = 261 then
          ({ t with cycleOffset6 := s.cycleOffset6 + 681, pos := 0, scanline := 262 } : State).endFrame
        else { t with cycleOffset6 := s.cycleOffset6 + 682, pos := 0, scanline := s.scanline + 1 }))

/-- O7. The schedules are the tables of R710 and R713 to R715, in time order and inside their scanline; endFrame rebases by whole
cycles (R704, R710, R713, R714, R715, R730). D17, D19 and D20 are the spec's own decisions (log 1). -/
def Obligations.SchedulesAreTheTables : Prop :=
  (∀ line, (sched line).length = if line < 240 then 42 else if line = 261 then 43 else 1) ∧
  (∀ line k, line < 240 → k < 42 → (sched line)[k]? = some (visibleEntry k)) ∧
  (∀ k, k < 43 → (sched 261)[k]? = some (preRenderEntry k)) ∧
  sched 240 = [⟨0, [.frameDone]⟩] ∧ sched 241 = [⟨0, [.doVBlank]⟩] ∧
  (∀ line, 242 ≤ line → line ≤ 260 → sched line = [⟨0, []⟩]) ∧
  (∀ (line i j : Nat) (e f : Entry), i ≤ j → (sched line)[i]? = some e → (sched line)[j]? = some f → e.at6 ≤ f.at6 ∧ f.at6 ≤ 681) ∧
  ∀ s : State, s.endFrame = { s with
    cycle := s.cycle - s.cycleOffset6 / 6, cycleOffset6 := s.cycleOffset6 % 6, scanline := 0, frameCount := s.frameCount + 1 }

/-- O8. LDA, LDX, LDY: the register takes M, Z and N follow it, the cost is the table's, and nothing else changes (R400, R401,
R402). -/
def Obligations.LoadsWriteRegisterAndZN : Prop :=
  ReadRule ldaRow (fun m s => { s with a := m, p := zn s.p m }) ∧
  ReadRule ldxRow (fun m s => { s with x := m, p := zn s.p m }) ∧
  ReadRule ldyRow (fun m s => { s with y := m, p := zn s.p m })

/-- O9. STA, STX, STY: one bus write of the register to the effective address, no register or flag written, never a page penalty
(R331, R403, R404, R405, R620). The parity at 0x4014 and what is copied are the spec's own decisions D14 and D15 (log 1), and
the cost there follows R331, R334 and R620 and not the bound of 518 of R922 and R810 (log 19). -/
def Obligations.StoresWriteOnlyMemory : Prop :=
  StoreRule staRow State.a ∧ StoreRule stxRow State.x ∧ StoreRule styRow State.y

/-- O10. TAX, TAY, TXA, TYA, TSX set Z and N, TXS sets no flag; INX, INY, DEX, DEY step modulo 256 and leave C; 2 cycles each
(R406, R407, R408, R409, R410, R411, R459, R460, R462, R463). -/
def Obligations.TransfersAndRegisterSteps : Prop :=
  ImpliedRule .tax 0xAA 2 (fun s => { s with x := s.a, p := zn s.p s.a }) ∧
  ImpliedRule .tay 0xA8 2 (fun s => { s with y := s.a, p := zn s.p s.a }) ∧
  ImpliedRule .txa 0x8A 2 (fun s => { s with a := s.x, p := zn s.p s.x }) ∧
  ImpliedRule .tya 0x98 2 (fun s => { s with a := s.y, p := zn s.p s.y }) ∧
  ImpliedRule .tsx 0xBA 2 (fun s => { s with x := s.sp, p := zn s.p s.sp }) ∧
  ImpliedRule .txs 0x9A 2 (fun s => { s with sp := s.x }) ∧
  ImpliedRule .inx 0xE8 2 (fun s =>
    let b := BitVec.ofNat 8 (s.x.toNat + 1)
    { s with x := b, p := zn s.p b }) ∧
  ImpliedRule .iny 0xC8 2 (fun s =>
    let b := BitVec.ofNat 8 (s.y.toNat + 1)
    { s with y := b, p := zn s.p b }) ∧
  ImpliedRule .dex 0xCA 2 (fun s =>
    let b := BitVec.ofNat 8 (s.x.toNat + 255)
    { s with x := b, p := zn s.p b }) ∧
  ImpliedRule .dey 0x88 2 (fun s =>
    let b := BitVec.ofNat 8 (s.y.toNat + 255)
    { s with y := b, p := zn s.p b })

/-- O11. PHA stores A at 0x0100|SP and decrements SP, no flag; PLA increments SP, loads A from there and sets Z and N (R434,
R436). -/
def Obligations.PushAndPullAccumulator : Prop :=
  encode .pha = [0x48#8] ∧ encode .pla = [0x68#8] ∧
  (∀ s, ∃ t, exec .pha s = .next t ∧ Pushed s t [s.a] ∧
    t = { s with ram := t.ram, sp := t.sp, cycle := s.cycle + 3 }) ∧
  ∀ s, exec .pla s = .next { s with
    a := stackByte s 1, p := zn s.p (stackByte s 1), sp := s.sp + 1, cycle := s.cycle + 4 }

/-- O12. PHP pushes P with bits 4 and 5 set; PLP and RTI take the six flags from the pulled byte, bits 4 and 5 ignored (spec
decision D7) (R103, R104, R435, R437, R513). D7 is the spec's own decision. -/
def Obligations.PushAndPullStatus : Prop :=
  encode .php = [0x08#8] ∧ encode .plp = [0x28#8] ∧ encode .rti = [0x40#8] ∧
  (∀ p : Status, p.toByte = statusByte p) ∧
  (∀ s, ∃ t, exec .php s = .next t ∧ Pushed s t [statusByte s.p] ∧
    t = { s with ram := t.ram, sp := t.sp, cycle := s.cycle + 3 }) ∧
  (∀ s, exec .plp s = .next { s with p := flagsOf (stackByte s 1), sp := s.sp + 1, cycle := s.cycle + 4 }) ∧
  ∀ s, exec .rti s = .next { s with
    p := flagsOf (stackByte s 1), pc := le16 (stackByte s 2) (stackByte s 3), sp := s.sp + 3, cycle := s.cycle + 6 }

/-- O13. ADC and SBC: A takes A+M+C or A-M-(1-C) modulo 256, C carry or no borrow, V the sign comparison, Z and N the result
(R451, R452, R453). -/
def Obligations.AddAndSubtractWithCarry : Prop :=
  ReadRule adcRow (fun m s =>
    let sum := s.a.toNat + m.toNat + s.p.c.toNat
    let r : Byte := BitVec.ofNat 8 (sum % 256)
    { s with a := r, p := { zn s.p r with
        c := decide (255 < sum), v := decide ((m ^^^ r) &&& (s.a ^^^ r) &&& 0x80#8 ≠ 0#8) } }) ∧
  ReadRule sbcRow (fun m s =>
    let diff : Int := (s.a.toNat : Int) - (m.toNat : Int) - (1 - (s.p.c.toNat : Int))
    let r : Byte := BitVec.ofInt 8 diff
    { s with a := r, p := { zn s.p r with
        c := decide (0 ≤ diff), v := decide (((0xFF#8 - m) ^^^ r) &&& (s.a ^^^ r) &&& 0x80#8 ≠ 0#8) } })

/-- O14. D changes nothing but D itself and pushed copies of P (spec decision D8); V is signed overflow of the exact sum or
difference (R105, R450). D8 is the spec's own decision. -/
def Obligations.DecimalFlagIsInertAndVIsSignedOverflow : Prop :=
  (∀ (i : Instr) (s : State) (b : Bool), i ≠ .php → i ≠ .brk → (∀ op, i ≠ .illegal op) →
    ∃ t b', exec i s = .next t ∧ exec i (withD s b) = .next (withD t b')) ∧
  ∀ (s : State) (m : Byte),
    ((adcOp m s).p.v = true ↔
      s.a.toInt + m.toInt + (s.p.c.toNat : Int) < -128 ∨ 127 < s.a.toInt + m.toInt + (s.p.c.toNat : Int)) ∧
    ((sbcOp m s).p.v = true ↔
      s.a.toInt - m.toInt - (1 - (s.p.c.toNat : Int)) < -128 ∨ 127 < s.a.toInt - m.toInt - (1 - (s.p.c.toNat : Int)))

/-- O15. CMP, CPX, CPY: C is R >= M, Z is R == M, N is bit 7 of R - M; no register and no other flag is written (R454, R455, R456,
R457). -/
def Obligations.ComparesSetCarryZeroNegative : Prop :=
  ReadRule cmpRow (fun m s => { s with p := { s.p with
    c := decide (m.toNat ≤ s.a.toNat), z := decide (s.a = m), n := decide (128 ≤ (256 + s.a.toNat - m.toNat) % 256) } }) ∧
  ReadRule cpxRow (fun m s => { s with p := { s.p with
    c := decide (m.toNat ≤ s.x.toNat), z := decide (s.x = m), n := decide (128 ≤ (256 + s.x.toNat - m.toNat) % 256) } }) ∧
  ReadRule cpyRow (fun m s => { s with p := { s.p with
    c := decide (m.toNat ≤ s.y.toNat), z := decide (s.y = m), n := decide (128 ≤ (256 + s.y.toNat - m.toNat) % 256) } })

/-- O16. INC and DEC: one read and one write of the effective address, the byte plus or minus 1 modulo 256, Z and N only (R331,
R458, R461, R620). The parity at 0x4014 and what is copied are the spec's own decisions D14 and D15 (log 1), and the cost
there follows R331, R334 and R620 and not the bound of 518 of R922 and R810 (log 19). -/
def Obligations.IncrementAndDecrementMemory : Prop :=
  ModifyRule incRow (fun old _ => BitVec.ofNat 8 (old.toNat + 1)) (fun old p => zn p (BitVec.ofNat 8 (old.toNat + 1))) ∧
  ModifyRule decRow (fun old _ => BitVec.ofNat 8 (old.toNat + 255)) (fun old p => zn p (BitVec.ofNat 8 (old.toNat + 255)))

/-- O17. AND, ORA, EOR combine A with M and set Z and N; BIT sets Z from A & M and N, V from bits 7, 6 of M and writes no register
(R480, R481, R482, R483). -/
def Obligations.LogicAndBitTest : Prop :=
  ReadRule andRow (fun m s => { s with a := s.a &&& m, p := zn s.p (s.a &&& m) }) ∧
  ReadRule oraRow (fun m s => { s with a := s.a ||| m, p := zn s.p (s.a ||| m) }) ∧
  ReadRule eorRow (fun m s => { s with a := s.a ^^^ m, p := zn s.p (s.a ^^^ m) }) ∧
  ReadRule bitRow (fun m s => { s with p := { s.p with
    z := decide (s.a &&& m = 0#8), n := decide (m.toNat / 128 % 2 = 1), v := decide (m.toNat / 64 % 2 = 1) } })

/-- O18. ASL, LSR, ROL, ROR on the accumulator and on memory: the result, the bit shifted out into C, the old C rotated in (R331,
R484, R485, R486, R487, R620). The parity at 0x4014 and what is copied are the spec's own decisions D14 and D15 (log 1), and
the cost there follows R331, R334 and R620 and not the bound of 518 of R922 and R810 (log 19). -/
def Obligations.ShiftsAndRotates : Prop :=
  ModifyRule aslRow (fun old _ => BitVec.ofNat 8 (2 * old.toNat))
    (fun old p => { zn p (BitVec.ofNat 8 (2 * old.toNat)) with c := decide (128 ≤ old.toNat) }) ∧
  ModifyRule lsrRow (fun old _ => BitVec.ofNat 8 (old.toNat / 2))
    (fun old p => { zn p (BitVec.ofNat 8 (old.toNat / 2)) with c := decide (old.toNat % 2 = 1) }) ∧
  ModifyRule rolRow (fun old p => BitVec.ofNat 8 (2 * old.toNat + p.c.toNat))
    (fun old p => { zn p (BitVec.ofNat 8 (2 * old.toNat + p.c.toNat)) with c := decide (128 ≤ old.toNat) }) ∧
  ModifyRule rorRow (fun old p => BitVec.ofNat 8 (old.toNat / 2 + 128 * p.c.toNat))
    (fun old p => { zn p (BitVec.ofNat 8 (old.toNat / 2 + 128 * p.c.toNat)) with c := decide (old.toNat % 2 = 1) })

/-- O19. JMP absolute and indirect set PC and nothing else; the indirect high byte comes from the pointer's own page (spec
decision D10) (R310, R313, R510). D10 is the spec's own decision. -/
def Obligations.JumpsSetPC : Prop :=
  (∀ f i op, jmpRow f = some (i, op) → encode i = op :: f.bytes) ∧
  (∀ a s, exec (.jmpAbs a) s = .next { s with pc := a, cycle := s.cycle + 3 }) ∧
  ∀ (a : Addr) (s : State),
    let lo := s.rd a
    let hi := lo.2.rd (BitVec.ofNat 16 (256 * (a.toNat / 256) + (a.toNat % 256 + 1) % 256))
    exec (.jmpInd a) s = .next { hi.2 with pc := le16 lo.1 hi.1, cycle := s.cycle + 5 } ∧ BusReadFrame s hi.2

/-- O20. JSR pushes the address of its own last byte, high byte first, and jumps; RTS pulls an address and adds 1; no flag (R511,
R512). -/
def Obligations.CallAndReturn : Prop :=
  (∀ a, encode (.jsr a) = [0x20#8, BitVec.ofNat 8 (a.toNat % 256), BitVec.ofNat 8 (a.toNat / 256)]) ∧ encode .rts = [0x60#8] ∧
  (∀ a s, ∃ t, exec (.jsr a) s = .next t ∧ Pushed s t (highLow (BitVec.ofNat 16 (s.pc.toNat + 65535))) ∧
    t = { s with ram := t.ram, sp := t.sp, pc := a, cycle := s.cycle + 6 }) ∧
  ∀ s, exec .rts s = .next { s with
    pc := BitVec.ofNat 16 ((le16 (stackByte s 1) (stackByte s 2)).toNat + 1), sp := s.sp + 2, cycle := s.cycle + 6 }

/-- O21. BRK pushes the address of its opcode plus 2 and P with B set, sets I, takes PC from 0xFFFE; 7 cycles in all (R514). -/
def Obligations.BrkTraps : Prop :=
  encode .brk = [0x00#8] ∧
  ∀ s, ∃ t, exec .brk s = .next t ∧
    EntryTaken s 0xFFFE (highLow (BitVec.ofNat 16 (s.pc.toNat + 1)) ++ [statusByte s.p]) true t

/-- O22. RTS after JSR, and RTI after an NMI, IRQ or BRK entry, restore PC, SP and the flags as the entry found them (R511, R512,
R513, R800, R811). D4 and D7 are the spec's own decisions (log 1). -/
def Obligations.ReturnsUndoEntriesAndCalls : Prop :=
  ∀ s : State,
    (∀ a, ∃ t u, exec (.jsr a) s = .next t ∧ exec .rts t = .next u ∧
      u = { s with ram := u.ram, cycle := s.cycle + 12 }) ∧
    (∃ u, exec .rti s.doNMI = .next u ∧ u.pc = s.pc ∧ u.sp = s.sp ∧ u.p = s.p ∧ u.a = s.a ∧ u.x = s.x ∧ u.y = s.y ∧
      u.cycle = s.cycle + 13) ∧
    (s.p.i = false → ∃ u, exec .rti s.doIRQ = .next u ∧ u.pc = s.pc ∧ u.sp = s.sp ∧ u.p = s.p ∧ u.a = s.a ∧ u.x = s.x ∧
      u.y = s.y ∧ u.cycle = s.cycle + 13) ∧
    ∃ t u, exec .brk s = .next t ∧ exec .rti t = .next u ∧ u.pc = s.pc + 1 ∧ u.sp = s.sp ∧ u.p = s.p ∧ u.a = s.a ∧
      u.x = s.x ∧ u.y = s.y ∧ u.cycle = s.cycle + 13

/-- O23. The eight branches go to PC plus the signed offset when their flag holds; 2, 3 or 4 cycles (page comparison: spec
decision D13) (R309, R333, R515, R516, R517, R518, R519, R520, R521, R522, R523). D13 is the spec's own decision. -/
def Obligations.BranchesFollowTheirFlag : Prop :=
  BranchRule .bcc 0x90 (fun p => !p.c) ∧ BranchRule .bcs 0xB0 (fun p => p.c) ∧
  BranchRule .beq 0xF0 (fun p => p.z) ∧ BranchRule .bne 0xD0 (fun p => !p.z) ∧
  BranchRule .bmi 0x30 (fun p => p.n) ∧ BranchRule .bpl 0x10 (fun p => !p.n) ∧
  BranchRule .bvc 0x50 (fun p => !p.v) ∧ BranchRule .bvs 0x70 (fun p => p.v)

/-- O24. CLC, SEC, CLI, SEI, CLD, SED, CLV write their one flag and NOP nothing; 2 cycles each (R550, R551, R552, R553, R554,
R555, R556, R557). -/
def Obligations.FlagInstructionsAndNop : Prop :=
  ImpliedRule .clc 0x18 2 (fun s => { s with p := { s.p with c := false } }) ∧
  ImpliedRule .sec 0x38 2 (fun s => { s with p := { s.p with c := true } }) ∧
  ImpliedRule .cli 0x58 2 (fun s => { s with p := { s.p with i := false } }) ∧
  ImpliedRule .sei 0x78 2 (fun s => { s with p := { s.p with i := true } }) ∧
  ImpliedRule .cld 0xD8 2 (fun s => { s with p := { s.p with d := false } }) ∧
  ImpliedRule .sed 0xF8 2 (fun s => { s with p := { s.p with d := true } }) ∧
  ImpliedRule .clv 0xB8 2 (fun s => { s with p := { s.p with v := false } }) ∧
  ImpliedRule .nop 0xEA 2 (fun s => s) ∧
  ∀ s : State, (s.rd s.pc).1 = 0xEA#8 → ∃ t, s.cpuStep = .next t ∧ t.pc = s.pc + 1 ∧ t.cycle = s.cycle + 2 ∧
    BusReadFrame s { t with pc := s.pc, cycle := s.cycle }

/-- O25. An illegal opcode performs the reset entry under policy reset and stops with its byte under policy fault (spec decisions
D5, D6) (R558, R803, R804, R815). D4, D5, D6 and D46 are the spec's own decisions (log 1); the bytes are one constructor (log
20). -/
def Obligations.IllegalOpcodesResetOrFault : Prop :=
  ∀ (op : Byte) (s : State),
    (s.params.illegalPolicy = .reset → ∃ t, exec (.illegal op) s = .next t ∧
      EntryTaken s 0xFFFC (if s.params.resetPushesP then [entryByte s.p] else []) s.params.intEntrySetsI t) ∧
    (s.params.illegalPolicy = .fault → exec (.illegal op) s = .fault (.illegalOpcode op))

/-- O26. push writes at 0x0100|SP and decrements; pull increments and reads; push16 high byte first, pull16 low byte first (R430,
R431, R432, R433). -/
def Obligations.StackPrimitives : Prop :=
  (∀ s b, Pushed s (s.push b) [b] ∧ s.push b = { s with ram := (s.push b).ram, sp := s.sp - 1 }) ∧
  (∀ s : State, s.pull = (stackByte s 1, { s with sp := s.sp + 1 })) ∧
  (∀ s w, Pushed s (s.push16 w) (highLow w) ∧ s.push16 w = { s with ram := (s.push16 w).ram, sp := s.sp - 2 }) ∧
  ∀ s : State, s.pull16 = (le16 (stackByte s 1) (stackByte s 2), { s with sp := s.sp + 2 })

/-- O27. Any number of pushes keeps SP in a byte and writes only 0x0100 to 0x01FF; 256 pushes bring SP back; SP wraps at both ends
(R438). -/
def Obligations.StackNeverLeavesPageOne : Prop :=
  (∀ (s : State) (bs : List Byte),
    let t := bs.foldl State.push s
    t = { s with ram := t.ram, sp := s.sp - BitVec.ofNat 8 bs.length } ∧
    (∀ k, k < 0x100 ∨ 0x200 ≤ k → Table.read t.ram 0 k = Table.read s.ram 0 k) ∧
    (bs.length = 256 → t.sp = s.sp ∧
      ∀ j, j < 256 → Table.read t.ram 0 (0x100 + (s.sp - BitVec.ofNat 8 j).toNat) = bs.getD j 0)) ∧
  (∀ (s : State) b, s.sp = 0 → (s.push b).sp = 0xFF#8 ∧ Table.read (s.push b).ram 0 0x100 = b) ∧
  ∀ s : State, s.sp = 0xFF#8 → s.pull = (Table.read s.ram 0 0x100, { s with sp := 0 })

/-- O28. The effective address and the page-cross of every addressing mode, with the wraps of R224 (spec decision D10) (R306,
R307, R308, R310, R311, R312, R313, R314, R315, R316, R224). D10 is the spec's own decision. -/
def Obligations.AddressingModesResolve : Prop :=
  ∀ (s : State) (z : Byte) (a : Addr),
    let ptr := fun n : Nat => Table.read s.ram 0 (n % 256)
    let base := le16 (ptr z.toNat) (ptr (z.toNat + 1))
    let crossing := fun (u : Addr) (i : Byte) => decide (u.toNat / 256 ≠ (u.toNat + i.toNat) % 65536 / 256)
    s.resolve (.zp z) = ⟨BitVec.ofNat 16 z.toNat, false, s⟩ ∧
    s.resolve (.zpx z) = ⟨BitVec.ofNat 16 ((z.toNat + s.x.toNat) % 256), false, s⟩ ∧
    s.resolve (.zpy z) = ⟨BitVec.ofNat 16 ((z.toNat + s.y.toNat) % 256), false, s⟩ ∧
    s.resolve (.abs a) = ⟨a, false, s⟩ ∧
    s.resolve (.absx a) = ⟨BitVec.ofNat 16 (a.toNat + s.x.toNat), crossing a s.x, s⟩ ∧
    s.resolve (.absy a) = ⟨BitVec.ofNat 16 (a.toNat + s.y.toNat), crossing a s.y, s⟩ ∧
    s.resolve (.indx z) = ⟨le16 (ptr (z.toNat + s.x.toNat)) (ptr (z.toNat + s.x.toNat + 1)), false, s⟩ ∧
    s.resolve (.indy z) = ⟨BitVec.ofNat 16 (base.toNat + s.y.toNat), crossing base s.y, s⟩ ∧
    let lo := s.rd a
    let hi := lo.2.rd (BitVec.ofNat 16 (256 * (a.toNat / 256) + (a.toNat % 256 + 1) % 256))
    s.resolve (.ind a) = ⟨le16 lo.1 hi.1, false, hi.2⟩ ∧ BusReadFrame s hi.2

/-- O29. Addresses below 0x2000 select ram[a mod 0x800]: a byte written through one image is read through all four, others are
kept (R201). -/
def Obligations.WorkRamHasFourImages : Prop :=
  ∀ (s : State) (a b : Addr) (d : Byte), a.toNat < 0x2000 → b.toNat < 0x2000 →
    s.rd a = (Table.read s.ram 0 (a.toNat % 0x800), s) ∧
    ((s.wr a d).rd b).1 = (if a.toNat % 0x800 = b.toNat % 0x800 then d else (s.rd b).1) ∧
    s.wr a d = { s with ram := (s.wr a d).ram }

/-- O30. Where bus accesses from 0x2000 up go: PPU registers every 8 bytes, pads, audio unit, cartridge (D32, D38, log 9) (R202,
R203, R204, R205, R206, R207, R238). D32 and D38 are the spec's own decisions; the read of 0x4014 is the model's reading of
R203 against 93 U11 (log 9, DEDUCED). -/
def Obligations.CpuMemoryMap : Prop :=
  ∀ (s : State) (a : Addr) (d : Byte),
    (0x2000 ≤ a.toNat ∧ a.toNat < 0x4000 →
      s.rd a = s.rd (BitVec.ofNat 16 (0x2000 + a.toNat % 8)) ∧ s.wr a d = s.wr (BitVec.ofNat 16 (0x2000 + a.toNat % 8)) d) ∧
    s.rd 0x4016#16 = (s.pad0.read.1, { s with pad0 := s.pad0.read.2 }) ∧
    s.rd 0x4017#16 = (s.pad1.read.1, { s with pad1 := s.pad1.read.2 }) ∧
    s.wr 0x4016#16 d = { s with pad0 := s.pad0.write d, pad1 := s.pad1.write d } ∧
    (0x4000 ≤ a.toNat ∧ a.toNat < 0x4016 →
      s.rd a = ((s.apu.readRegister a).1, { s with apu := (s.apu.readRegister a).2 })) ∧
    (0x4000 ≤ a.toNat ∧ a.toNat < 0x4018 → a.toNat ≠ 0x4014 → a.toNat ≠ 0x4016 →
      s.wr a d = { s with apu := s.apu.writeRegister a d }) ∧
    (0x4018 ≤ a.toNat → s.rd a = ((s.cart.cpuRead a).1, { s with cart := (s.cart.cpuRead a).2 }) ∧
      s.wr a d = { s with cart := s.cart.cpuWrite a d }) ∧
    ∀ r, s.cart = .reference r → 0x4018 ≤ a.toNat →
      s.rd a = (if 0x8000 ≤ a.toNat then Table.read r.prg 0 (a.toNat - 0x8000) else 0, s) ∧ s.wr a d = s

/-- O31. Reading $2002 gives the three flags and clears vblank and w; the write-only registers read 0 with no effect (decision
D24) (R600, R601, R604, R223). D23 and D24 are the spec's own decisions. -/
def Obligations.PpuRegisterReads : Prop :=
  ∀ s : State,
    s.rd 0x2002#16 =
      (BitVec.ofNat 8 (128 * s.ppu.vblank.toNat + 64 * s.ppu.sprite0Hit.toNat + 32 * s.ppu.spriteOverflow.toNat),
        { s with ppu := { s.ppu with vblank := false, w := false } }) ∧
    s.rd 0x2000#16 = (0, s) ∧ s.rd 0x2001#16 = (0, s) ∧ s.rd 0x2003#16 = (0, s) ∧ s.rd 0x2005#16 = (0, s) ∧
    s.rd 0x2006#16 = (0, s)

/-- O32. Writing $2000 sets ctrl and t[11:10], $2001 mask and the rendering latch (decision D21), $2002 nothing; no NMI (decision
D33) (R602, R603, R605, R127). D21, D23 (the places of the bits) and D33 are the spec's own decisions. -/
def Obligations.ControlMaskStatusWrites : Prop :=
  ∀ (s : State) (d : Byte),
    (∃ t' : VAddr, s.wr 0x2000#16 d = { s with ppu := { s.ppu with ctrl := d, t := t' } } ∧
      ∀ k, t'.getLsbD k = if k = 10 then d.getLsbD 0 else if k = 11 then d.getLsbD 1 else s.ppu.t.getLsbD k) ∧
    s.wr 0x2001#16 d = { s with ppu := { s.ppu with
      mask := d, renderingEnabled := decide (d.toNat / 8 % 2 = 1 ∨ d.toNat / 16 % 2 = 1) } } ∧
    s.wr 0x2002#16 d = s

/-- O33. Writing $2003 sets oamAddr; $2004 writes oam[oamAddr] and increments; reading $2004 answers oam[oamAddr] without
increment (R606, R607, R608). -/
def Obligations.OamPort : Prop :=
  ∀ (s : State) (d : Byte),
    s.wr 0x2003#16 d = { s with ppu := { s.ppu with oamAddr := d } } ∧
    (∃ oam', s.wr 0x2004#16 d =
        { s with ppu := { s.ppu with oam := oam', oamAddr := BitVec.ofNat 8 (s.ppu.oamAddr.toNat + 1) } } ∧
      ∀ k, Table.read oam' 0 k = if k = s.ppu.oamAddr.toNat then d else Table.read s.ppu.oam 0 k) ∧
    s.rd 0x2004#16 = (Table.read s.ppu.oam 0 s.ppu.oamAddr.toNat, s)

/-- O34. The two writes of $2005 and of $2006 place the bits of d in t (and x, and v on the second $2006 write) and flip w
(decision D23) (R609, R610). The places of the bits are the spec's own decision D23 (log 1). -/
def Obligations.ScrollAndAddressWrites : Prop :=
  ∀ (s : State) (d : Byte),
    (s.ppu.w = false → ∃ t' : VAddr,
      s.wr 0x2005#16 d = { s with ppu := { s.ppu with t := t', x := BitVec.ofNat 3 (d.toNat % 8), w := true } } ∧
      ∀ k, t'.getLsbD k = if k < 5 then d.getLsbD (k + 3) else s.ppu.t.getLsbD k) ∧
    (s.ppu.w = true → ∃ t' : VAddr,
      s.wr 0x2005#16 d = { s with ppu := { s.ppu with t := t', w := false } } ∧
      ∀ k, t'.getLsbD k = if 12 ≤ k ∧ k < 15 then d.getLsbD (k - 12) else if 5 ≤ k ∧ k < 10 then d.getLsbD (k - 2)
        else s.ppu.t.getLsbD k) ∧
    (s.ppu.w = false → ∃ t' : VAddr,
      s.wr 0x2006#16 d = { s with ppu := { s.ppu with t := t', w := true } } ∧
      ∀ k, t'.getLsbD k = if 8 ≤ k ∧ k < 14 then d.getLsbD (k - 8) else if k = 14 then false else s.ppu.t.getLsbD k) ∧
    (s.ppu.w = true → ∃ t' : VAddr,
      s.wr 0x2006#16 d = { s with ppu := { s.ppu with t := t', v := t', w := false } } ∧
      ∀ k, t'.getLsbD k = if k < 8 then d.getLsbD k else s.ppu.t.getLsbD k)

/-- O35. A $2007 access goes to v mod 0x4000 and adds 1 or 32 to v; palette reads answer at once, others through readBuf (decision
D25) (R611, R612, R122). D3 (15 bits of v), D23 (bit 2 of ctrl) and D25 are the spec's own decisions. -/
def Obligations.DataPort : Prop :=
  ∀ (s : State) (d : Byte),
    let a : PpuAddr := BitVec.ofNat 14 (s.ppu.v.toNat % 0x4000)
    let v' : VAddr := BitVec.ofNat 15 (s.ppu.v.toNat + if s.ppu.ctrl.toNat / 4 % 2 = 1 then 32 else 1)
    s.wr 0x2007#16 d = { s.ppuWrite a d with ppu := { (s.ppuWrite a d).ppu with v := v' } } ∧
    (a.toNat < 0x3F00 →
      let r := s.ppuRead a
      s.rd 0x2007#16 = (s.ppu.readBuf, { r.2 with ppu := { s.ppu with readBuf := r.1, v := v' } })) ∧
    (0x3F00 ≤ a.toNat →
      let r := s.ppuReadUnder (BitVec.ofNat 14 (a.toNat - 0x1000))
      s.rd 0x2007#16 = ((s.ppuRead a).1, { r.2 with ppu := { s.ppu with readBuf := r.1, v := v' } }))

/-- O36. With the reference cartridge a PPU bus read answers the latest write to the selected cell, palette images and mirroring
included (R211, R213, R214, R215, R216, R238). D26, D27 and D38 are the spec's own decisions. -/
def Obligations.PpuBusReadAfterWrite : Prop :=
  ∀ (s : State) (r : RefCart) (a b : PpuAddr) (d : Byte), s.cart = .reference r →
    (s.ppuRead a).2 = s ∧
    ((s.ppuWrite a d).ppuRead b).1 =
      if ppuCell r.mirror a = ppuCell r.mirror b then (if 0x3F00 ≤ b.toNat then BitVec.ofNat 8 (d.toNat % 64) else d)
      else (s.ppuRead b).1

/-- O37. A write to 0x4014 copies a CPU page into OAM from oamAddr on; every store form adds 513 or 514 cycles for it (D14, D15,
log 19) (R620, R201, R238, R330, R331, R334, R403, R404, R405). D14, D15 and D38 are the spec's own decisions (log 1). The
costs follow R330, R331, R334, R403 to R405 and R620, up to 520, and not the bound of 518 of R922 and R810 (log 19). -/
def Obligations.OamDma : Prop :=
  (∀ (s : State) (d : Byte),
    let t := s.wr 0x4014#16 d
    let source := fun k : Nat => (k + 256 - s.ppu.oamAddr.toNat) % 256
    t = { s with ppu := t.ppu, cart := t.cart, apu := t.apu, pad0 := t.pad0, pad1 := t.pad1 } ∧
    t.ppu.oamAddr = s.ppu.oamAddr ∧
    (∃ f : Nat → State, f 0 = s ∧ f 256 = t ∧ ∀ i, i < 256 →
      let r := (f i).rd (BitVec.ofNat 16 (256 * d.toNat + i))
      f (i + 1) = r.2.wr 0x2004#16 r.1 ∧ Table.read t.ppu.oam 0 ((s.ppu.oamAddr.toNat + i) % 256) = r.1) ∧
    (d.toNat < 0x20 → t = { s with ppu := { s.ppu with oam := t.ppu.oam } } ∧
      ∀ k, k < 256 → Table.read t.ppu.oam 0 k = Table.read s.ram 0 ((256 * d.toNat + source k) % 0x800)) ∧
    ∀ r, s.cart = .reference r → 0x41 ≤ d.toNat → t = { s with ppu := { s.ppu with oam := t.ppu.oam } } ∧
      ∀ k, k < 256 → Table.read t.ppu.oam 0 k =
        if 0x80 ≤ d.toNat then Table.read r.prg 0 (256 * d.toNat + source k - 0x8000) else 0) ∧
  ∀ (s : State) (m : Ea) (i : Instr) (op reg : Byte), (s.resolve m).ea = 0x4014#16 →
    (staRow (.mem m) = some (i, op) ∧ reg = s.a ∨ stxRow (.mem m) = some (i, op) ∧ reg = s.x ∨
      styRow (.mem m) = some (i, op) ∧ reg = s.y) →
    exec i s = .next { s.wr 0x4014#16 reg with
      cycle := s.cycle + storeCost m + (if s.cycle % 2 = 1 then 514 else 513) }

/-- O38. incrementX and incrementY move coarse X, and fine and coarse Y, with their wraps and nametable toggles, and no other
field (R641, R642). -/
def Obligations.ScrollIncrements : Prop :=
  ∀ s : State, s.ppu.renderingEnabled = true →
    (∃ v', s.incrementX = { s with ppu := { s.ppu with v := v' } } ∧
      coarseX v' = (coarseX s.ppu.v + 1) % 32 ∧ ntX v' = (ntX s.ppu.v + if coarseX s.ppu.v = 31 then 1 else 0) % 2 ∧
      coarseY v' = coarseY s.ppu.v ∧ ntY v' = ntY s.ppu.v ∧ fineY v' = fineY s.ppu.v) ∧
    ∃ v', s.incrementY = { s with ppu := { s.ppu with v := v' } } ∧
      fineY v' = (fineY s.ppu.v + 1) % 8 ∧
      coarseY v' = (if fineY s.ppu.v ≠ 7 then coarseY s.ppu.v else if coarseY s.ppu.v = 29 then 0
        else (coarseY s.ppu.v + 1) % 32) ∧
      ntY v' = (ntY s.ppu.v + if fineY s.ppu.v = 7 ∧ coarseY s.ppu.v = 29 then 1 else 0) % 2 ∧
      coarseX v' = coarseX s.ppu.v ∧ ntX v' = ntX s.ppu.v

/-- O39. resetX and resetY copy their bit groups of t into v; with rendering off scroll moves, evaluation and sprite fetch do
nothing (D22) (R640, R643, R644). D22 is the spec's own decision; what fetchTile does with rendering off is in TileFetch. -/
def Obligations.ScrollCopiesAndGating : Prop :=
  ∀ s : State,
    (s.ppu.renderingEnabled = true →
      (∃ v', s.resetX = { s with ppu := { s.ppu with v := v' } } ∧
        ∀ k, v'.getLsbD k = if k < 5 ∨ k = 10 then s.ppu.t.getLsbD k else s.ppu.v.getLsbD k) ∧
      (∃ v', s.resetY = { s with ppu := { s.ppu with v := v' } } ∧
        ∀ k, v'.getLsbD k = if k < 5 ∨ k = 10 then s.ppu.v.getLsbD k else s.ppu.t.getLsbD k) ∧
      s.resetX.resetY = { s with ppu := { s.ppu with v := s.ppu.t } } ∧
      s.resetY.resetX = { s with ppu := { s.ppu with v := s.ppu.t } }) ∧
    (s.ppu.renderingEnabled = false →
      s.incrementX = s ∧ s.incrementY = s ∧ s.resetX = s ∧ s.resetY = s ∧ (∀ line, s.evaluateSprites line = s) ∧
      ∀ i line, s.fetchSprite i line = s)

/-- O40. 32 incrementX restore coarse X and toggle bit 10 once, 64 restore v; 240 incrementY from row 0 return to it toggling bit
11 (R641, R642, R652). -/
def Obligations.ScrollAlgebra : Prop :=
  (∀ v : VAddr, incX^[32] v = v ^^^ 0x0400#15 ∧ incX^[64] v = v) ∧
  (∀ v : VAddr, fineY v = 0 → coarseY v = 0 → incY^[240] v = v ^^^ 0x0800#15) ∧
  ∀ v : VAddr, fineY v = 7 → coarseY v = 31 → (incY v).toNat = v.toNat % 32 + v.toNat / 1024 % 4 * 1024

/-- O41. fetchTile reads nametable, attribute and two pattern bytes, shifts 8 pixels into bgBuf and increments X (decisions D19,
D40) (R640, R645, R650). D19, D22 (with rendering off), D23 and D40 are the spec's own decisions. -/
def Obligations.TileFetch : Prop :=
  ∀ s : State,
    (∀ i, i < 8 → pixelNat s.fetchTile.ppu.bgBuf i = pixelNat s.ppu.bgBuf (i + 8)) ∧
    (s.ppu.renderingEnabled = true →
      let v := s.ppu.v.toNat
      let nt := s.ppuRead (BitVec.ofNat 14 (0x2000 + v % 0x1000))
      let att := nt.2.ppuRead (BitVec.ofNat 14 (0x23C0 + 0x400 * (v / 0x400 % 4) + 8 * (v / 128 % 8) + v / 4 % 8))
      let row : Nat := 0x1000 * (s.ppu.ctrl.toNat / 16 % 2) + 16 * nt.1.toNat + v / 0x1000
      let lo := att.2.ppuRead (BitVec.ofNat 14 row)
      let hi := lo.2.ppuRead (BitVec.ofNat 14 (row + 8))
      let pal : Nat := att.1.toNat / 2 ^ (4 * (v / 64 % 2) + 2 * (v / 2 % 2)) % 4
      (∀ i, i < 8 → pixelNat s.fetchTile.ppu.bgBuf (8 + i) =
        4 * pal + 2 * bitNat hi.1 (7 - i) + bitNat lo.1 (7 - i)) ∧
      s.fetchTile = { hi.2 with ppu := { s.ppu with v := incX s.ppu.v, bgBuf := s.fetchTile.ppu.bgBuf } }) ∧
    (s.ppu.renderingEnabled = false →
      (∀ i, i < 8 → pixelNat s.fetchTile.ppu.bgBuf (8 + i) = 0) ∧
      s.fetchTile = { s with ppu := { s.ppu with bgBuf := s.fetchTile.ppu.bgBuf } })

/-- O42. Evaluation after the clear leaves in secondary OAM exactly the first eight sprites in range, in OAM order (decision D29)
(R671, R672, R673). D22, D23 and D29 are the spec's own decisions. -/
def Obligations.SecondaryOamHoldsTheFirstEight : Prop :=
  ∀ (s : State) (line : Nat), s.ppu.renderingEnabled = true →
    let L := spritesInRange s.ppu.oam line (if s.ppu.ctrl.toNat / 32 % 2 = 1 then 16 else 8)
    let t := s.clearSecondaryOAM.evaluateSprites line
    t.ppu.secCount = min 8 L.length ∧
    (∀ i j, i < 8 → j < 4 → Table.read t.ppu.sec 0xFF#8 (4 * i + j) =
      match L[i]? with | some n => Table.read s.ppu.oam 0 (4 * n + j) | none => 0xFF#8) ∧
    t.ppu.sprite0InSec = decide (L.head? = some 0) ∧
    (L.length < 8 → t.ppu.spriteOverflow = s.ppu.spriteOverflow ∧ t.ppu.oamAddr = 0) ∧
    t = { s with ppu := { s.ppu with
      sec := t.ppu.sec, secCount := t.ppu.secCount, sprite0InSec := t.ppu.sprite0InSec
      spriteOverflow := t.ppu.spriteOverflow, oamAddr := t.ppu.oamAddr } }

/-- O43. After eight sprites the overflow search steps n and m together: the flag and oamAddr follow the first byte found
(decision D29) (R673). D22, D23 and D29 are the spec's own decisions. -/
def Obligations.OverflowSearchHasTheBug : Prop :=
  ∀ (s : State) (line n8 : Nat), s.ppu.renderingEnabled = true →
    let h : Nat := if s.ppu.ctrl.toNat / 32 % 2 = 1 then 16 else 8
    (spritesInRange s.ppu.oam line h)[7]? = some n8 →
    let t := s.clearSecondaryOAM.evaluateSprites line
    let hit := fun k : Nat =>
      let y := (Table.read s.ppu.oam 0 (4 * (n8 + 1 + k) + k % 4)).toNat
      decide (y ≤ line ∧ line < y + h)
    match (List.range (64 - (n8 + 1))).find? hit with
    | some k => t.ppu.spriteOverflow = true ∧ t.ppu.oamAddr = BitVec.ofNat 8 (4 * (n8 + 1 + k + 1) + k % 4)
    | none => t.ppu.spriteOverflow = s.ppu.spriteOverflow ∧ t.ppu.oamAddr = BitVec.ofNat 8 ((64 - (n8 + 1)) % 4)

/-- O44. clearSpriteLayers empties the three layers; fetchSprite draws one row of an entry into its layer; an unused entry does
nothing (D28, D39) (R674, R675, R676). D22, D23, D28 and D39 are the spec's own decisions. -/
def Obligations.SpriteFetchDrawsOneRow : Prop :=
  (∀ s : State,
    let t := s.clearSpriteLayers
    (∀ px, pixelNat t.ppu.layerBehind px = 0 ∧ pixelNat t.ppu.layerSpr0 px = 0 ∧ pixelNat t.ppu.layerFront px = 0) ∧
    t = { s with ppu := { s.ppu with
      layerBehind := t.ppu.layerBehind, layerSpr0 := t.ppu.layerSpr0, layerFront := t.ppu.layerFront } }) ∧
  ∀ (s : State) (i line : Nat),
    (s.ppu.secCount ≤ i → s.fetchSprite i line = s) ∧
    (s.ppu.renderingEnabled = true → i < s.ppu.secCount →
      let y := Table.read s.ppu.sec 0xFF#8 (4 * i)
      let tile := Table.read s.ppu.sec 0xFF#8 (4 * i + 1)
      let attr := Table.read s.ppu.sec 0xFF#8 (4 * i + 2)
      let xpos := (Table.read s.ppu.sec 0xFF#8 (4 * i + 3)).toNat
      let lo := s.ppuRead (BitVec.ofNat 14 (spriteAddrNat s.ppu line y tile attr))
      let hi := lo.2.ppuRead (BitVec.ofNat 14 (spriteAddrNat s.ppu line y tile attr + 8))
      let row := rowPixel attr xpos lo.1 hi.1
      let t := s.fetchSprite i line
      if s.ppu.sprite0InSec = true ∧ i = 0 then
        Drawn s.ppu.layerSpr0 t.ppu.layerSpr0 row ∧ t = { hi.2 with ppu := { s.ppu with layerSpr0 := t.ppu.layerSpr0 } }
      else if attr.toNat / 32 % 2 = 1 then
        Drawn s.ppu.layerBehind t.ppu.layerBehind row ∧
          t = { hi.2 with ppu := { s.ppu with layerBehind := t.ppu.layerBehind } }
      else Drawn s.ppu.layerFront t.ppu.layerFront row ∧ t = { hi.2 with ppu := { s.ppu with layerFront := t.ppu.layerFront } })

/-- O45. renderTile writes exactly its 8 pixels, each of the front-most opaque layer, and sets sprite-0 hit on an overlap (D30,
D31, D41) (R680, R681, R682, R683, R684, R686). D22, D23, D30, D31, D36, D41, D44 and D45 are the spec's own decisions. -/
def Obligations.PictureComposition : Prop :=
  ∀ (s : State) (line k : Nat),
    let t := s.renderTile line k
    (∀ row px, (Picture.pixel t.ppu.frame row px).toNat =
      if row = line ∧ px / 8 = k then outputNat s.params.tvMode s.ppu.mask (shownColour s.ppu px)
      else (Picture.pixel s.ppu.frame row px).toNat) ∧
    (t.ppu.sprite0Hit = true ↔ s.ppu.sprite0Hit = true ∨
      ∃ px, px / 8 = k ∧ sprShown s.ppu s.ppu.layerSpr0 px % 4 ≠ 0 ∧ bgShown s.ppu px % 4 ≠ 0) ∧
    t = { s with ppu := { s.ppu with frame := t.ppu.frame, sprite0Hit := t.ppu.sprite0Hit } }

/-- O46. When the CPU passes dot 0 of scanline 241 the step sets vblank and, exactly if ctrl bit 7 is set, enters the NMI handler
(D4, D20) (R690, R705, R706, R714, R800, R801). D4, D7 (the byte pushed), D9, D20, D23 and D33 are the spec's own decisions
(log 1); the agenda is the model's (log 7). -/
def Obligations.VBlankRaisesNmi : Prop :=
  ∀ s : State, NoCallHere s → s.scanline = 241 → s.pos = 0 → s.cycleOffset6 < 6 * s.cycle →
    let u : State := { taken s with ppu := { s.ppu with vblank := true } }
    (s.ppu.ctrl.getLsbD 7 = false →
      step s = .next { u with cycleOffset6 := s.cycleOffset6 + 682, pos := 0, scanline := 242 }) ∧
    (s.ppu.ctrl.getLsbD 7 = true → ∃ t, EntryTaken u 0xFFFA (highLow s.pc ++ [entryByte s.p]) s.params.intEntrySetsI t ∧
      step s = .next { t with cycleOffset6 := s.cycleOffset6 + 682, pos := 0, scanline := 242 })

/-- O47. endVBlank, at dot 0 of scanline 261, clears the three flags and recomputes the rendering latch from mask, and nothing
else (D20, D21) (R691, R706, R715). D20 (its place), D21 and D23 are the spec's own decisions (log 1); the agenda is the
model's (log 7). -/
def Obligations.EndOfVBlankClearsFlags : Prop :=
  ∀ s : State,
    let lit := decide (s.ppu.mask.toNat / 8 % 2 = 1 ∨ s.ppu.mask.toNat / 16 % 2 = 1)
    s.endVBlank = { s with ppu := { s.ppu with
      vblank := false, sprite0Hit := false, spriteOverflow := false, renderingEnabled := lit } } ∧
    (NoCallHere s → s.scanline = 261 → s.pos = 0 → s.cycleOffset6 < 6 * s.cycle →
      ∃ t, step s = .next t ∧ t.ppu.vblank = false ∧ t.ppu.sprite0Hit = false ∧ t.ppu.spriteOverflow = false ∧
        t.ppu.renderingEnabled = lit ∧ t.scanline = 261 ∧ t.pos = 1)

/-- O48. The picture is handed over on scanline 240; the frame ends with K = 29780 or 29781 cycles taken off exactly (D17, D20)
(R713, R730, R731, R732). D17 and D20 are the spec's own decisions (log 1); the agenda is the model's (log 7). -/
def Obligations.FramesAreHandedOverAndRebased : Prop :=
  ∀ s : State, s.Inv → NoCallHere s →
    (s.scanline = 240 → s.cycleOffset6 < 6 * s.cycle →
      step s = .next { taken s with
        framesDone := s.framesDone + 1, lastFrame := s.ppu.frame
        cycleOffset6 := s.cycleOffset6 + 682, pos := 0, scanline := 241 }) ∧
    (s.scanline = 261 → s.pos = 42 → s.cycleOffset6 + 681 < 6 * s.cycle →
      (s.cycleOffset6 = 682 * 261 → 29780 ≤ s.cycle ∧ step s = .next { taken s with
        cycle := s.cycle - 29780, cycleOffset6 := 3, pos := 0, scanline := 0, frameCount := s.frameCount + 1 }) ∧
      (s.cycleOffset6 = 682 * 261 + 3 → 29781 ≤ s.cycle ∧ step s = .next { taken s with
        cycle := s.cycle - 29781, cycleOffset6 := 0, pos := 0, scanline := 0, frameCount := s.frameCount + 1 })) ∧
    (s.cycleOffset6 = 682 * s.scanline → s.pos = 0 →
      (s.scanline = 240 → (s.cpuDue = false ↔ 27281 ≤ s.cycle)) ∧ (s.scanline = 241 → (s.cpuDue = false ↔ 27394 ≤ s.cycle)) ∧
      (s.scanline = 261 → (s.cpuDue = false ↔ 29668 ≤ s.cycle)))

/-- O49. An IRQ request between steps does nothing while I is set, and otherwise enters through 0xFFFE with P pushed with B clear
(D4, D34) (R800, R806, R807, R812). D4, D7 (the byte pushed), D9 and D34 are the spec's own decisions (log 1); a request as a
place of the agenda is the model's choice (log 7). -/
def Obligations.IrqRequests : Prop :=
  ∀ (s : State) (rest : List HostCall), s.agenda = .irq :: rest →
    (s.p.i = true → step s = .next (taken s)) ∧
    (s.p.i = false → ∃ t, step s = .next t ∧
      EntryTaken (taken s) 0xFFFE (highLow s.pc ++ [entryByte s.p]) s.params.intEntrySetsI t)

/-- O50. A host reset between steps is the reset entry: PC from 0xFFFC, P pushed only with RESET_PUSHES_P, all else kept (D5, D43)
(R153, R803, R812, R905). D4, D5 and D43 are the spec's own decisions (log 1); a reset as a place of the agenda is the model's
choice (log 7). -/
def Obligations.ResetRequests : Prop :=
  ∀ (s : State) (rest : List HostCall), s.agenda = .reset :: rest → ∃ t, step s = .next t ∧
    EntryTaken (taken s) 0xFFFC (if s.params.resetPushesP then [entryByte s.p] else []) s.params.intEntrySetsI t ∧
    t.a = s.a ∧ t.x = s.x ∧ t.y = s.y ∧ t.scanline = s.scanline ∧ t.pos = s.pos ∧ t.cycleOffset6 = s.cycleOffset6

/-- O51. Power on sets P = 0x34, SP = 0xFD, PC from the reset vector, memories from the parameters and the rest to D35 and D18
(R150, R151, R152, R154, R903). D18 and D35 (log 2) are the spec's own decisions; the parameters are held as log 3 says, and
the order of the palette's bytes and the byte a shared cell takes are the model's reading (log 13, DEDUCED). -/
def Obligations.PowerOnValues : Prop :=
  ∀ (q : Params) (c : Cart) (apu : Apu) (p0 p1 : Pad),
    let s := State.powerOn q c apu p0 p1
    let lo := c.cpuRead 0xFFFC#16
    let hi := lo.2.cpuRead 0xFFFD#16
    (statusByte s.p = 0x34#8 ∧ s.sp = 0xFD#8 ∧ s.pc = le16 lo.1 hi.1) ∧
    (s.a = 0 ∧ s.x = 0 ∧ s.y = 0 ∧ s.cycle = 0 ∧ s.cycleOffset6 = 0 ∧ s.scanline = 0 ∧ s.pos = 0 ∧ s.frameCount = 0) ∧
    (s.ppu.v = 0 ∧ s.ppu.t = 0 ∧ s.ppu.x = 0 ∧ s.ppu.w = false ∧ s.ppu.ctrl = 0 ∧ s.ppu.mask = 0 ∧ s.ppu.vblank = false ∧
      s.ppu.sprite0Hit = false ∧ s.ppu.spriteOverflow = false ∧ s.ppu.oamAddr = 0 ∧ s.ppu.readBuf = 0 ∧
      s.ppu.renderingEnabled = false ∧ s.ppu.secCount = 0 ∧ s.ppu.sprite0InSec = false) ∧
    (∀ k, k < 0x800 → Table.read s.ram 0 k = Table.read q.ramInit 0 k ∧
      Table.read s.ppu.ciram 0 k = Table.read q.ciramInit 0 k) ∧
    (∀ k, k < 0x100 → Table.read s.ppu.oam 0 k = Table.read q.oamInit 0 k) ∧
    (∀ a : PpuAddr, (s.ppu.paletteRead a).toNat = (Table.read q.paletteInit 0 (paletteCell a)).toNat % 64) ∧
    (∀ k, Table.read s.ppu.sec 0xFF#8 k = 0xFF#8 ∧ pixelNat s.ppu.bgBuf k = 0 ∧ pixelNat s.ppu.layerBehind k = 0 ∧
      pixelNat s.ppu.layerSpr0 k = 0 ∧ pixelNat s.ppu.layerFront k = 0 ∧ ∀ row, Picture.pixel s.ppu.frame row k = 0) ∧
    s.cart = hi.2 ∧ s.apu = apu ∧ s.pad0 = p0 ∧ s.pad1 = p1 ∧ s.params = q

/-- O52. The invariant holds in the state after reset, with the values of D18 and D35 (log 2) and the blank cartridge (log 5)
(R109, R150, R151, R152). D18 and D35 (log 2) and D21 (the latch) are the spec's own decisions; the defaults are log 3, the
blank cartridge log 5, the shared palette cells log 13 and the canonical form log 14, the model's. -/
def Obligations.InvHoldsAtReset : Prop :=
  State.reset.Inv

/-- O53. Every step from a state with the invariant leads to a state with the invariant (D17, D20, D21, logs 7, 13, 14, 15) (R109,
R127, R130, R131, R140, R700, R705, R706, R730). D16, D17, D20 and D21 are the spec's own decisions (log 1); the agenda (log
7), the shared palette cells (log 13), the canonical form (log 14) and power on while running (log 15) are the model's. -/
def Obligations.EveryStepKeepsInv : Prop :=
  ∀ s t : State, s.Inv → step s = .next t → t.Inv

/-- O54. No step refuses; a step faults only on an illegal opcode byte under policy fault; under policy reset every step completes
(R207, R323, R808, R815). The policy is the spec's parameter of decision D6, held as log 3 says; the agenda is log 7, power on
while running log 15. -/
def Obligations.StepsNeverRefuseAndRarelyFault : Prop :=
  ∀ s : State,
    (∀ r, step s ≠ .refused r) ∧
    (∀ op, step s = .fault (.illegalOpcode op) → s.params.illegalPolicy = .fault ∧ op ∈ illegalOpcodes) ∧
    (s.params.illegalPolicy = .reset → ∃ t, step s = .next t ∧ t.params = s.params)

/-- O55. An instruction costs 2 to 7 cycles, and 513 or 514 more only if it stores or modifies memory at 0x4014 (D14, log 19)
(R106, R330, R331, R334, R620, R810, R922). D14 is the spec's own decision. The other forms exceed the 518 of R922 and R810 by
R331, R334 and R620 (log 19). -/
def Obligations.InstructionCosts : Prop :=
  ∀ (i : Instr) (s t : State), exec i s = .next t →
    ∃ c e, t.cycle = s.cycle + c + e ∧ 2 ≤ c ∧ c ≤ 7 ∧ (e = 0 ∨ e = 513 + s.cycle % 2) ∧
      ((∃ a, i = .staAbs a ∨ i = .stxAbs a ∨ i = .styAbs a) → c + e ≤ 518) ∧
      (e ≠ 0 → ∃ m op, (s.resolve m).ea = 0x4014#16 ∧
        (staRow (.mem m) = some (i, op) ∨ stxRow (.mem m) = some (i, op) ∨ styRow (.mem m) = some (i, op) ∨
          incRow (.mem m) = some (i, op) ∨ decRow (.mem m) = some (i, op) ∨ aslRow (.mem m) = some (i, op) ∨
          lsrRow (.mem m) = some (i, op) ∨ rolRow (.mem m) = some (i, op) ∨ rorRow (.mem m) = some (i, op)))

/-- O56. Once set, sprite-0 hit and sprite overflow are cleared by nothing but endVBlank on scanline 261 (or a new power on)
(R124, R604, R673, R686, R691). D20 (the place of endVBlank), D29 and D30 are the spec's own decisions (log 1); power on while
running is log 15, the agenda log 7. -/
def Obligations.SpriteFlagsAreSticky : Prop :=
  ∀ s t : State, step s = .next t →
    (s.ppu.sprite0Hit = true ∧ t.ppu.sprite0Hit = false) ∨ (s.ppu.spriteOverflow = true ∧ t.ppu.spriteOverflow = false) →
    (∃ rest, s.agenda = .powerOn :: rest) ∨ (NoCallHere s ∧ s.cpuDue = false ∧ s.scanline = 261 ∧ s.pos = 0)

/-- O57. Instructions leave the Scheduler, the picture and the sprite and tile pipeline alone; schedule entries leave the CPU
alone but for the NMI (R107, R134, R140, R706, R805). D20 (the place of doVBlank) and D33 are the spec's own decisions (log
1); the agenda (log 7) and the audio unit's calls (log 8) are the model's. -/
def Obligations.CpuAndPpuStepsKeepApart : Prop :=
  (∀ (i : Instr) (s t : State), exec i s = .next t →
    t = { s with a := t.a, x := t.x, y := t.y, sp := t.sp, pc := t.pc, p := t.p, cycle := t.cycle, ram := t.ram
                 ppu := t.ppu, cart := t.cart, apu := t.apu, pad0 := t.pad0, pad1 := t.pad1 } ∧
    t.ppu = { t.ppu with
      sprite0Hit := s.ppu.sprite0Hit, spriteOverflow := s.ppu.spriteOverflow, sec := s.ppu.sec, secCount := s.ppu.secCount
      sprite0InSec := s.ppu.sprite0InSec, bgBuf := s.ppu.bgBuf, layerBehind := s.ppu.layerBehind
      layerSpr0 := s.ppu.layerSpr0, layerFront := s.ppu.layerFront, frame := s.ppu.frame }) ∧
  ∀ s : State, NoCallHere s → s.cpuDue = false → ∃ t, step s = .next t ∧
    t.a = s.a ∧ t.x = s.x ∧ t.y = s.y ∧ t.apu = s.apu ∧ t.pad0 = s.pad0 ∧ t.pad1 = s.pad1 ∧ t.params = s.params ∧
    (¬(s.scanline = 241 ∧ s.pos = 0 ∧ s.ppu.ctrl.getLsbD 7 = true) →
      t.ram = s.ram ∧ t.sp = s.sp ∧ t.pc = s.pc ∧ t.p = s.p)

/-- O58. What the machine has output (picture, frames handed over, frame count) never influences anything else (R134, R140, R236).
The record of the output is the model's (log 12), and so are the agenda (log 7) and power on while running (log 15). -/
def Obligations.OutputsAreNeverRead : Prop :=
  ∀ (s : State) (frame last : Picture) (done count : Nat),
    SameButOutputs (step s) (step (withOutputs s frame last done count))

/-- O59. doInstructions runs whole instructions until 6*cycle exceeds the limit, none if it already does, and always ends (R701,
R330, R620). D14 and D16 are the spec's own decisions (log 1), and the overshoot bound of 521 cycles is the model's reading
against R922 and R810 (log 19). That the loop ends is a consequence, not R701's words. No call of the environment comes
between its instructions, which is the model's choice (log 22). -/
def Obligations.DoInstructionsRunsPastTheLimit : Prop :=
  ∀ (limit6 : Nat) (s : State),
    (limit6 + s.cycleOffset6 < 6 * s.cycle → ∀ fuel, s.doInstructions limit6 (fuel + 1) = some (.next s)) ∧
    (∀ fuel t, s.doInstructions limit6 fuel = some (.next t) →
      limit6 + s.cycleOffset6 < 6 * t.cycle ∧ t.cycleOffset6 = s.cycleOffset6 ∧
      (6 * s.cycle ≤ limit6 + s.cycleOffset6 → 6 * t.cycle ≤ limit6 + s.cycleOffset6 + 6 * 521)) ∧
    (s.params.illegalPolicy = .reset → ∃ t, s.doInstructions limit6 (limit6 + s.cycleOffset6 + 2) = some (.next t))

/-- O60. From the start of a frame, with no environment calls and policy reset, runFrame ends at the start of the next, one
picture handed over (R703, R713, R730, R818). D16, D17, D20 and D21 are the spec's own decisions (log 1); the agenda is the
model's (log 7), and so are the clauses of the invariant named at EveryStepKeepsInv. -/
def Obligations.EveryFrameEnds : Prop :=
  ∀ s : State, s.Inv → s.scanline = 0 → s.pos = 0 → s.agenda = [] → s.params.illegalPolicy = .reset →
    ∃ fuel t, s.runFrame fuel = some (.next t) ∧ t.scanline = 0 ∧ t.pos = 0 ∧ t.frameCount = s.frameCount + 1 ∧
      t.framesDone = s.framesDone + 1 ∧ t.Inv
end

