-- ==== Sys2Proof/Laws/State.lean ====
section
/-! SUPPORT. What each named register update does to each field of the state, and the flag updates to each flag: one lemma per
field per update, so that no later proof unfolds an update. -/

namespace Sys2Proof.Machine

@[simp] theorem State.charge_a (s : State) (n : Nat) : (s.charge n).a = s.a := rfl
@[simp] theorem State.charge_x (s : State) (n : Nat) : (s.charge n).x = s.x := rfl
@[simp] theorem State.charge_y (s : State) (n : Nat) : (s.charge n).y = s.y := rfl
@[simp] theorem State.charge_sp (s : State) (n : Nat) : (s.charge n).sp = s.sp := rfl
@[simp] theorem State.charge_pc (s : State) (n : Nat) : (s.charge n).pc = s.pc := rfl
@[simp] theorem State.charge_p (s : State) (n : Nat) : (s.charge n).p = s.p := rfl
@[simp] theorem State.charge_cycle (s : State) (n : Nat) : (s.charge n).cycle = s.cycle + n := rfl
@[simp] theorem State.charge_cycleOffset6 (s : State) (n : Nat) : (s.charge n).cycleOffset6 = s.cycleOffset6 := rfl
@[simp] theorem State.charge_ram (s : State) (n : Nat) : (s.charge n).ram = s.ram := rfl
@[simp] theorem State.charge_ppu (s : State) (n : Nat) : (s.charge n).ppu = s.ppu := rfl
@[simp] theorem State.charge_scanline (s : State) (n : Nat) : (s.charge n).scanline = s.scanline := rfl
@[simp] theorem State.charge_pos (s : State) (n : Nat) : (s.charge n).pos = s.pos := rfl
@[simp] theorem State.charge_frameCount (s : State) (n : Nat) : (s.charge n).frameCount = s.frameCount := rfl
@[simp] theorem State.charge_cart (s : State) (n : Nat) : (s.charge n).cart = s.cart := rfl
@[simp] theorem State.charge_apu (s : State) (n : Nat) : (s.charge n).apu = s.apu := rfl
@[simp] theorem State.charge_pad0 (s : State) (n : Nat) : (s.charge n).pad0 = s.pad0 := rfl
@[simp] theorem State.charge_pad1 (s : State) (n : Nat) : (s.charge n).pad1 = s.pad1 := rfl
@[simp] theorem State.charge_framesDone (s : State) (n : Nat) : (s.charge n).framesDone = s.framesDone := rfl
@[simp] theorem State.charge_lastFrame (s : State) (n : Nat) : (s.charge n).lastFrame = s.lastFrame := rfl
@[simp] theorem State.charge_agenda (s : State) (n : Nat) : (s.charge n).agenda = s.agenda := rfl
@[simp] theorem State.charge_params (s : State) (n : Nat) : (s.charge n).params = s.params := rfl

@[simp] theorem State.setA_a (s : State) (b : Byte) : (s.setA b).a = b := rfl
@[simp] theorem State.setA_x (s : State) (b : Byte) : (s.setA b).x = s.x := rfl
@[simp] theorem State.setA_y (s : State) (b : Byte) : (s.setA b).y = s.y := rfl
@[simp] theorem State.setA_sp (s : State) (b : Byte) : (s.setA b).sp = s.sp := rfl
@[simp] theorem State.setA_pc (s : State) (b : Byte) : (s.setA b).pc = s.pc := rfl
@[simp] theorem State.setA_p (s : State) (b : Byte) : (s.setA b).p = s.p.setZN b := rfl
@[simp] theorem State.setA_cycle (s : State) (b : Byte) : (s.setA b).cycle = s.cycle := rfl
@[simp] theorem State.setA_cycleOffset6 (s : State) (b : Byte) : (s.setA b).cycleOffset6 = s.cycleOffset6 := rfl
@[simp] theorem State.setA_ram (s : State) (b : Byte) : (s.setA b).ram = s.ram := rfl
@[simp] theorem State.setA_ppu (s : State) (b : Byte) : (s.setA b).ppu = s.ppu := rfl
@[simp] theorem State.setA_scanline (s : State) (b : Byte) : (s.setA b).scanline = s.scanline := rfl
@[simp] theorem State.setA_pos (s : State) (b : Byte) : (s.setA b).pos = s.pos := rfl
@[simp] theorem State.setA_frameCount (s : State) (b : Byte) : (s.setA b).frameCount = s.frameCount := rfl
@[simp] theorem State.setA_cart (s : State) (b : Byte) : (s.setA b).cart = s.cart := rfl
@[simp] theorem State.setA_apu (s : State) (b : Byte) : (s.setA b).apu = s.apu := rfl
@[simp] theorem State.setA_pad0 (s : State) (b : Byte) : (s.setA b).pad0 = s.pad0 := rfl
@[simp] theorem State.setA_pad1 (s : State) (b : Byte) : (s.setA b).pad1 = s.pad1 := rfl
@[simp] theorem State.setA_framesDone (s : State) (b : Byte) : (s.setA b).framesDone = s.framesDone := rfl
@[simp] theorem State.setA_lastFrame (s : State) (b : Byte) : (s.setA b).lastFrame = s.lastFrame := rfl
@[simp] theorem State.setA_agenda (s : State) (b : Byte) : (s.setA b).agenda = s.agenda := rfl
@[simp] theorem State.setA_params (s : State) (b : Byte) : (s.setA b).params = s.params := rfl

@[simp] theorem State.setX_a (s : State) (b : Byte) : (s.setX b).a = s.a := rfl
@[simp] theorem State.setX_x (s : State) (b : Byte) : (s.setX b).x = b := rfl
@[simp] theorem State.setX_y (s : State) (b : Byte) : (s.setX b).y = s.y := rfl
@[simp] theorem State.setX_sp (s : State) (b : Byte) : (s.setX b).sp = s.sp := rfl
@[simp] theorem State.setX_pc (s : State) (b : Byte) : (s.setX b).pc = s.pc := rfl
@[simp] theorem State.setX_p (s : State) (b : Byte) : (s.setX b).p = s.p.setZN b := rfl
@[simp] theorem State.setX_cycle (s : State) (b : Byte) : (s.setX b).cycle = s.cycle := rfl
@[simp] theorem State.setX_cycleOffset6 (s : State) (b : Byte) : (s.setX b).cycleOffset6 = s.cycleOffset6 := rfl
@[simp] theorem State.setX_ram (s : State) (b : Byte) : (s.setX b).ram = s.ram := rfl
@[simp] theorem State.setX_ppu (s : State) (b : Byte) : (s.setX b).ppu = s.ppu := rfl
@[simp] theorem State.setX_scanline (s : State) (b : Byte) : (s.setX b).scanline = s.scanline := rfl
@[simp] theorem State.setX_pos (s : State) (b : Byte) : (s.setX b).pos = s.pos := rfl
@[simp] theorem State.setX_frameCount (s : State) (b : Byte) : (s.setX b).frameCount = s.frameCount := rfl
@[simp] theorem State.setX_cart (s : State) (b : Byte) : (s.setX b).cart = s.cart := rfl
@[simp] theorem State.setX_apu (s : State) (b : Byte) : (s.setX b).apu = s.apu := rfl
@[simp] theorem State.setX_pad0 (s : State) (b : Byte) : (s.setX b).pad0 = s.pad0 := rfl
@[simp] theorem State.setX_pad1 (s : State) (b : Byte) : (s.setX b).pad1 = s.pad1 := rfl
@[simp] theorem State.setX_framesDone (s : State) (b : Byte) : (s.setX b).framesDone = s.framesDone := rfl
@[simp] theorem State.setX_lastFrame (s : State) (b : Byte) : (s.setX b).lastFrame = s.lastFrame := rfl
@[simp] theorem State.setX_agenda (s : State) (b : Byte) : (s.setX b).agenda = s.agenda := rfl
@[simp] theorem State.setX_params (s : State) (b : Byte) : (s.setX b).params = s.params := rfl

@[simp] theorem State.setY_a (s : State) (b : Byte) : (s.setY b).a = s.a := rfl
@[simp] theorem State.setY_x (s : State) (b : Byte) : (s.setY b).x = s.x := rfl
@[simp] theorem State.setY_y (s : State) (b : Byte) : (s.setY b).y = b := rfl
@[simp] theorem State.setY_sp (s : State) (b : Byte) : (s.setY b).sp = s.sp := rfl
@[simp] theorem State.setY_pc (s : State) (b : Byte) : (s.setY b).pc = s.pc := rfl
@[simp] theorem State.setY_p (s : State) (b : Byte) : (s.setY b).p = s.p.setZN b := rfl
@[simp] theorem State.setY_cycle (s : State) (b : Byte) : (s.setY b).cycle = s.cycle := rfl
@[simp] theorem State.setY_cycleOffset6 (s : State) (b : Byte) : (s.setY b).cycleOffset6 = s.cycleOffset6 := rfl
@[simp] theorem State.setY_ram (s : State) (b : Byte) : (s.setY b).ram = s.ram := rfl
@[simp] theorem State.setY_ppu (s : State) (b : Byte) : (s.setY b).ppu = s.ppu := rfl
@[simp] theorem State.setY_scanline (s : State) (b : Byte) : (s.setY b).scanline = s.scanline := rfl
@[simp] theorem State.setY_pos (s : State) (b : Byte) : (s.setY b).pos = s.pos := rfl
@[simp] theorem State.setY_frameCount (s : State) (b : Byte) : (s.setY b).frameCount = s.frameCount := rfl
@[simp] theorem State.setY_cart (s : State) (b : Byte) : (s.setY b).cart = s.cart := rfl
@[simp] theorem State.setY_apu (s : State) (b : Byte) : (s.setY b).apu = s.apu := rfl
@[simp] theorem State.setY_pad0 (s : State) (b : Byte) : (s.setY b).pad0 = s.pad0 := rfl
@[simp] theorem State.setY_pad1 (s : State) (b : Byte) : (s.setY b).pad1 = s.pad1 := rfl
@[simp] theorem State.setY_framesDone (s : State) (b : Byte) : (s.setY b).framesDone = s.framesDone := rfl
@[simp] theorem State.setY_lastFrame (s : State) (b : Byte) : (s.setY b).lastFrame = s.lastFrame := rfl
@[simp] theorem State.setY_agenda (s : State) (b : Byte) : (s.setY b).agenda = s.agenda := rfl
@[simp] theorem State.setY_params (s : State) (b : Byte) : (s.setY b).params = s.params := rfl

@[simp] theorem State.addc_a (s : State) (m : Byte) : (s.addc m).a = aluByte (addRaw s.a m s.p.c) := rfl
@[simp] theorem State.addc_x (s : State) (m : Byte) : (s.addc m).x = s.x := rfl
@[simp] theorem State.addc_y (s : State) (m : Byte) : (s.addc m).y = s.y := rfl
@[simp] theorem State.addc_sp (s : State) (m : Byte) : (s.addc m).sp = s.sp := rfl
@[simp] theorem State.addc_pc (s : State) (m : Byte) : (s.addc m).pc = s.pc := rfl
@[simp] theorem State.addc_p (s : State) (m : Byte) : (s.addc m).p = s.p.addc s.a m := rfl
@[simp] theorem State.addc_cycle (s : State) (m : Byte) : (s.addc m).cycle = s.cycle := rfl
@[simp] theorem State.addc_cycleOffset6 (s : State) (m : Byte) : (s.addc m).cycleOffset6 = s.cycleOffset6 := rfl
@[simp] theorem State.addc_ram (s : State) (m : Byte) : (s.addc m).ram = s.ram := rfl
@[simp] theorem State.addc_ppu (s : State) (m : Byte) : (s.addc m).ppu = s.ppu := rfl
@[simp] theorem State.addc_scanline (s : State) (m : Byte) : (s.addc m).scanline = s.scanline := rfl
@[simp] theorem State.addc_pos (s : State) (m : Byte) : (s.addc m).pos = s.pos := rfl
@[simp] theorem State.addc_frameCount (s : State) (m : Byte) : (s.addc m).frameCount = s.frameCount := rfl
@[simp] theorem State.addc_cart (s : State) (m : Byte) : (s.addc m).cart = s.cart := rfl
@[simp] theorem State.addc_apu (s : State) (m : Byte) : (s.addc m).apu = s.apu := rfl
@[simp] theorem State.addc_pad0 (s : State) (m : Byte) : (s.addc m).pad0 = s.pad0 := rfl
@[simp] theorem State.addc_pad1 (s : State) (m : Byte) : (s.addc m).pad1 = s.pad1 := rfl
@[simp] theorem State.addc_framesDone (s : State) (m : Byte) : (s.addc m).framesDone = s.framesDone := rfl
@[simp] theorem State.addc_lastFrame (s : State) (m : Byte) : (s.addc m).lastFrame = s.lastFrame := rfl
@[simp] theorem State.addc_agenda (s : State) (m : Byte) : (s.addc m).agenda = s.agenda := rfl
@[simp] theorem State.addc_params (s : State) (m : Byte) : (s.addc m).params = s.params := rfl

@[simp] theorem State.advanceV_a (s : State) : s.advanceV.a = s.a := rfl
@[simp] theorem State.advanceV_x (s : State) : s.advanceV.x = s.x := rfl
@[simp] theorem State.advanceV_y (s : State) : s.advanceV.y = s.y := rfl
@[simp] theorem State.advanceV_sp (s : State) : s.advanceV.sp = s.sp := rfl
@[simp] theorem State.advanceV_pc (s : State) : s.advanceV.pc = s.pc := rfl
@[simp] theorem State.advanceV_p (s : State) : s.advanceV.p = s.p := rfl
@[simp] theorem State.advanceV_cycle (s : State) : s.advanceV.cycle = s.cycle := rfl
@[simp] theorem State.advanceV_cycleOffset6 (s : State) : s.advanceV.cycleOffset6 = s.cycleOffset6 := rfl
@[simp] theorem State.advanceV_ram (s : State) : s.advanceV.ram = s.ram := rfl
@[simp] theorem State.advanceV_ppu (s : State) : s.advanceV.ppu = { s.ppu with v := s.ppu.v + s.ppu.addrInc } := rfl
@[simp] theorem State.advanceV_scanline (s : State) : s.advanceV.scanline = s.scanline := rfl
@[simp] theorem State.advanceV_pos (s : State) : s.advanceV.pos = s.pos := rfl
@[simp] theorem State.advanceV_frameCount (s : State) : s.advanceV.frameCount = s.frameCount := rfl
@[simp] theorem State.advanceV_cart (s : State) : s.advanceV.cart = s.cart := rfl
@[simp] theorem State.advanceV_apu (s : State) : s.advanceV.apu = s.apu := rfl
@[simp] theorem State.advanceV_pad0 (s : State) : s.advanceV.pad0 = s.pad0 := rfl
@[simp] theorem State.advanceV_pad1 (s : State) : s.advanceV.pad1 = s.pad1 := rfl
@[simp] theorem State.advanceV_framesDone (s : State) : s.advanceV.framesDone = s.framesDone := rfl
@[simp] theorem State.advanceV_lastFrame (s : State) : s.advanceV.lastFrame = s.lastFrame := rfl
@[simp] theorem State.advanceV_agenda (s : State) : s.advanceV.agenda = s.agenda := rfl
@[simp] theorem State.advanceV_params (s : State) : s.advanceV.params = s.params := rfl

@[simp] theorem Status.setZN_n (p : Status) (b : Byte) : (p.setZN b).n = b.getLsbD 7 := rfl
@[simp] theorem Status.setZN_v (p : Status) (b : Byte) : (p.setZN b).v = p.v := rfl
@[simp] theorem Status.setZN_d (p : Status) (b : Byte) : (p.setZN b).d = p.d := rfl
@[simp] theorem Status.setZN_i (p : Status) (b : Byte) : (p.setZN b).i = p.i := rfl
@[simp] theorem Status.setZN_z (p : Status) (b : Byte) : (p.setZN b).z = (b == 0#8) := rfl
@[simp] theorem Status.setZN_c (p : Status) (b : Byte) : (p.setZN b).c = p.c := rfl

@[simp] theorem Status.alu_n (p : Status) (r : Nat) : (p.alu r).n = (aluByte r).getLsbD 7 := rfl
@[simp] theorem Status.alu_v (p : Status) (r : Nat) : (p.alu r).v = p.v := rfl
@[simp] theorem Status.alu_d (p : Status) (r : Nat) : (p.alu r).d = p.d := rfl
@[simp] theorem Status.alu_i (p : Status) (r : Nat) : (p.alu r).i = p.i := rfl
@[simp] theorem Status.alu_z (p : Status) (r : Nat) : (p.alu r).z = (aluByte r == 0#8) := rfl
@[simp] theorem Status.alu_c (p : Status) (r : Nat) : (p.alu r).c = decide (0xFF < r) := rfl

@[simp] theorem Status.addc_n (p : Status) (a m : Byte) : (p.addc a m).n = (aluByte (addRaw a m p.c)).getLsbD 7 := rfl
@[simp] theorem Status.addc_v (p : Status) (a m : Byte) : (p.addc a m).v = ((m ^^^ aluByte (addRaw a m p.c)) &&& (a ^^^ aluByte (addRaw a m p.c))).getLsbD 7 := rfl
@[simp] theorem Status.addc_d (p : Status) (a m : Byte) : (p.addc a m).d = p.d := rfl
@[simp] theorem Status.addc_i (p : Status) (a m : Byte) : (p.addc a m).i = p.i := rfl
@[simp] theorem Status.addc_z (p : Status) (a m : Byte) : (p.addc a m).z = (aluByte (addRaw a m p.c) == 0#8) := rfl
@[simp] theorem Status.addc_c (p : Status) (a m : Byte) : (p.addc a m).c = decide (0xFF < addRaw a m p.c) := rfl

@[simp] theorem Status.bitTest_n (p : Status) (a m : Byte) : (p.bitTest a m).n = m.getLsbD 7 := rfl
@[simp] theorem Status.bitTest_v (p : Status) (a m : Byte) : (p.bitTest a m).v = m.getLsbD 6 := rfl
@[simp] theorem Status.bitTest_d (p : Status) (a m : Byte) : (p.bitTest a m).d = p.d := rfl
@[simp] theorem Status.bitTest_i (p : Status) (a m : Byte) : (p.bitTest a m).i = p.i := rfl
@[simp] theorem Status.bitTest_z (p : Status) (a m : Byte) : (p.bitTest a m).z = ((a &&& m) == 0#8) := rfl
@[simp] theorem Status.bitTest_c (p : Status) (a m : Byte) : (p.bitTest a m).c = p.c := rfl

/-- Bits 4 and 5 of `P` read as 1 whatever the flags (10 R104). -/
theorem Status.toByte_fixed (p : Status) : p.toByte &&& 0x30#8 = 0x30#8 := by
  obtain ⟨n, v, d, i, z, c⟩ := p
  revert n v d i z c
  decide

/-- The register read back after a write of the whole byte is the byte with bits 4 and 5 set (10 R104). -/
theorem Status.toByte_ofByte (b : Byte) : (Status.ofByte b).toByte = b ||| 0x30#8 := by
  revert b
  decide

/-- Writing back the register's own byte, or any pushed copy of it, restores the six flags. -/
@[simp] theorem Status.ofByte_toByte (p : Status) : Status.ofByte p.toByte = p := by
  obtain ⟨n, v, d, i, z, c⟩ := p
  revert n v d i z c
  decide

@[simp] theorem Status.ofByte_pushedByEntry (p : Status) : Status.ofByte p.pushedByEntry = p := by
  obtain ⟨n, v, d, i, z, c⟩ := p
  revert n v d i z c
  decide

@[simp] theorem Status.ofByte_pushedByInstr (p : Status) : Status.ofByte p.pushedByInstr = p := by
  obtain ⟨n, v, d, i, z, c⟩ := p
  revert n v d i z c
  decide

end Sys2Proof.Machine
end

