-- ==== Sys2Proof/Laws/Table.lean ====
section
/-! SUPPORT. What a sparse memory does: read after write, writes leave every other cell alone, and every memory operation keeps
the canonical form. -/

namespace Sys2Proof.Machine

variable {α : Type}

@[simp] theorem Table.read_nil (d : α) (a : Nat) : Table.read [] d a = d := rfl

theorem Table.read_erase (t : Table α) (d : α) (a b : Nat) :
    Table.read (t.erase a) d b = if a = b then d else Table.read t d b := by
  induction t with
  | nil => simp [Table.erase]
  | cons e t ih =>
    obtain ⟨k, v⟩ := e
    by_cases hk : k = a
    · subst hk
      by_cases hb : k = b
      · subst hb; simpa [Table.erase] using ih
      · simpa [Table.erase, Table.read, hb] using ih
    · by_cases hb : k = b
      · subst hb
        simp [Table.erase, Table.read, hk, Ne.symm hk]
      · simp [Table.erase, Table.read, hk, hb, ih]

theorem Table.read_insert_of_absent (t : Table α) (d x : α) (a b : Nat) (h : ∀ e ∈ t, e.1 ≠ a) :
    Table.read (t.insert a x) d b = if a = b then x else Table.read t d b := by
  induction t with
  | nil => simp [Table.insert, Table.read]
  | cons e t ih =>
    obtain ⟨k, v⟩ := e
    have hk : k ≠ a := h (k, v) (by simp)
    have ih' := ih fun e he => h e (by simp [he])
    by_cases hlt : a < k
    · by_cases hb : a = b
      · subst hb; simp [Table.insert, Table.read, hlt]
      · simp [Table.insert, Table.read, hlt, hb]
    · by_cases hb : k = b
      · subst hb
        simp [Table.insert, Table.read, hlt, Ne.symm hk]
      · simp [Table.insert, Table.read, hlt, hb, ih']

theorem Table.erase_absent (t : Table α) (a : Nat) : ∀ e ∈ t.erase a, e.1 ≠ a := by
  induction t with
  | nil => simp [Table.erase]
  | cons e t ih =>
    obtain ⟨k, v⟩ := e
    by_cases hk : k = a <;> simp [Table.erase, hk] <;> simpa using ih

variable [DecidableEq α]

/-- READ AFTER WRITE, for every cell and every table. -/
theorem Table.read_write (t : Table α) (d x : α) (a b : Nat) :
    Table.read (t.write d a x) d b = if a = b then x else Table.read t d b := by
  unfold Table.write
  split
  · next h => subst h; exact Table.read_erase t x a b
  · rw [Table.read_insert_of_absent _ _ _ _ _ (Table.erase_absent t a), Table.read_erase]
    by_cases h : a = b <;> simp [h]

@[simp] theorem Table.read_write_same (t : Table α) (d x : α) (a : Nat) : Table.read (t.write d a x) d a = x := by
  simp [Table.read_write]

theorem Table.read_write_other (t : Table α) (d x : α) {a b : Nat} (h : a ≠ b) :
    Table.read (t.write d a x) d b = Table.read t d b := by
  simp [Table.read_write, h]

theorem Table.wfFrom_mono (d : α) (n : Nat) {lo lo' : Nat} (t : Table α) (hl : lo' ≤ lo)
    (h : Table.wfFrom d n lo t = true) : Table.wfFrom d n lo' t = true := by
  cases t with
  | nil => rfl
  | cons e t =>
    obtain ⟨k, v⟩ := e
    simp only [Table.wfFrom, Bool.and_eq_true, decide_eq_true_eq] at h ⊢
    exact ⟨⟨⟨by omega, h.1.1.2⟩, h.1.2⟩, h.2⟩

theorem Table.wfFrom_erase (d : α) (n : Nat) (t : Table α) (a : Nat) {lo : Nat} (h : Table.wfFrom d n lo t = true) :
    Table.wfFrom d n lo (t.erase a) = true := by
  induction t generalizing lo with
  | nil => rfl
  | cons e t ih =>
    obtain ⟨k, v⟩ := e
    simp only [Table.wfFrom, Bool.and_eq_true, decide_eq_true_eq] at h
    by_cases hk : k = a
    · simp only [Table.erase, hk, if_true]
      exact Table.wfFrom_mono d n _ (by omega) (ih h.2)
    · simp only [Table.erase, hk, if_false, Table.wfFrom, Bool.and_eq_true, decide_eq_true_eq]
      exact ⟨h.1, ih h.2⟩

theorem Table.wfFrom_insert (d x : α) (n : Nat) (t : Table α) (a : Nat) {lo : Nat} (hx : x ≠ d) (ha : a < n) (hlo : lo ≤ a)
    (habs : ∀ e ∈ t, e.1 ≠ a) (h : Table.wfFrom d n lo t = true) : Table.wfFrom d n lo (t.insert a x) = true := by
  induction t generalizing lo with
  | nil => simp [Table.insert, Table.wfFrom, hx, ha, hlo]
  | cons e t ih =>
    obtain ⟨k, v⟩ := e
    have hk : k ≠ a := habs (k, v) (by simp)
    simp only [Table.wfFrom, Bool.and_eq_true, decide_eq_true_eq] at h
    by_cases hlt : a < k
    · simp only [Table.insert, hlt, if_true, Table.wfFrom, Bool.and_eq_true, decide_eq_true_eq]
      exact ⟨⟨⟨hlo, ha⟩, hx⟩, ⟨⟨by omega, h.1.1.2⟩, h.1.2⟩, h.2⟩
    · simp only [Table.insert, hlt, if_false, Table.wfFrom, Bool.and_eq_true, decide_eq_true_eq]
      exact ⟨h.1, ih (by omega) (fun e he => habs e (by simp [he])) h.2⟩

/-- A write keeps the canonical form. -/
theorem Table.wf_write (d x : α) {n a : Nat} (t : Table α) (ha : a < n) (h : t.wf d n = true) :
    (t.write d a x).wf d n = true := by
  unfold Table.wf Table.write at *
  split
  · exact Table.wfFrom_erase d n t a h
  · next hx =>
    exact Table.wfFrom_insert d x n _ a hx ha (by omega) (Table.erase_absent t a) (Table.wfFrom_erase d n t a h)

@[simp] theorem Table.wf_nil (d : α) (n : Nat) : Table.wf d n [] = true := rfl

theorem Table.read_of_wfFrom_lt (d : α) (n : Nat) (t : Table α) {lo a : Nat} (h : Table.wfFrom d n lo t = true) (ha : a < lo) :
    Table.read t d a = d := by
  induction t generalizing lo with
  | nil => rfl
  | cons e t ih =>
    obtain ⟨k, v⟩ := e
    simp only [Table.wfFrom, Bool.and_eq_true, decide_eq_true_eq] at h
    have hk : k ≠ a := by omega
    simp only [Table.read, hk, if_false]
    exact ih h.2 (by omega)

/-- A cell outside the size of a canonical table reads as the default. -/
theorem Table.read_of_wf_ge (d : α) {n a : Nat} (t : Table α) (h : t.wf d n = true) (ha : n ≤ a) : Table.read t d a = d := by
  unfold Table.wf at h
  generalize 0 = lo at h
  induction t generalizing lo with
  | nil => rfl
  | cons e t ih =>
    obtain ⟨k, v⟩ := e
    simp only [Table.wfFrom, Bool.and_eq_true, decide_eq_true_eq] at h
    have hk : k ≠ a := by omega
    simp only [Table.read, hk, if_false]
    exact ih _ h.2

/-- Canonical tables that read alike are equal as data. -/
theorem Table.wfFrom_ext (d : α) (n : Nat) (t u : Table α) {lo : Nat} (ht : Table.wfFrom d n lo t = true)
    (hu : Table.wfFrom d n lo u = true) (h : ∀ a, Table.read t d a = Table.read u d a) : t = u := by
  induction t generalizing u lo with
  | nil =>
    cases u with
    | nil => rfl
    | cons e u =>
      obtain ⟨k, v⟩ := e
      simp only [Table.wfFrom, Bool.and_eq_true, decide_eq_true_eq] at hu
      have := h k
      simp [Table.read] at this
      exact absurd this.symm hu.1.2
  | cons e t ih =>
    obtain ⟨k, v⟩ := e
    simp only [Table.wfFrom, Bool.and_eq_true, decide_eq_true_eq] at ht
    cases u with
    | nil =>
      have := h k
      simp [Table.read] at this
      exact absurd this ht.1.2
    | cons e' u =>
      obtain ⟨k', v'⟩ := e'
      simp only [Table.wfFrom, Bool.and_eq_true, decide_eq_true_eq] at hu
      have hkk : k = k' := by
        rcases Nat.lt_trichotomy k k' with hlt | heq | hgt
        · have := h k
          rw [Table.read, if_pos rfl, Table.read, if_neg (by omega),
            Table.read_of_wfFrom_lt d n u hu.2 (by omega)] at this
          exact absurd this ht.1.2
        · exact heq
        · have := h k'
          rw [Table.read, if_neg (by omega), Table.read_of_wfFrom_lt d n t ht.2 (by omega), Table.read, if_pos rfl] at this
          exact absurd this.symm hu.1.2
      subst hkk
      have hvv : v = v' := by simpa [Table.read] using h k
      subst hvv
      have htu : t = u := ih u ht.2 hu.2 fun a => by
        by_cases ha : k = a
        · subst ha
          rw [Table.read_of_wfFrom_lt d n t ht.2 (by omega), Table.read_of_wfFrom_lt d n u hu.2 (by omega)]
        · simpa [Table.read, ha] using h a
      rw [htu]

theorem Table.read_tabulateFrom (d : α) (f : Nat → α) (k n a : Nat) :
    Table.read (Table.tabulateFrom d f k n) d a = if k ≤ a ∧ a < k + n then f a else d := by
  induction n generalizing k with
  | zero =>
    simp [Table.tabulateFrom]
  | succ n ih =>
    unfold Table.tabulateFrom
    split
    · next hf =>
      rw [ih (k + 1)]
      by_cases hka : k = a
      · subst hka
        have h1 : ¬(k + 1 ≤ k ∧ k < k + 1 + n) := by omega
        simp [hf]
      · have : (k + 1 ≤ a ∧ a < k + 1 + n) ↔ (k ≤ a ∧ a < k + (n + 1)) := by omega
        simp only [this]
    · simp only [Table.read, ih (k + 1)]
      by_cases hka : k = a
      · subst hka; simp
      · have : (k + 1 ≤ a ∧ a < k + 1 + n) ↔ (k ≤ a ∧ a < k + (n + 1)) := by omega
        simp only [hka, if_false, this]

/-- A tabulated table reads as its function. -/
theorem Table.read_tabulate (d : α) (n : Nat) (f : Nat → α) (a : Nat) :
    Table.read (Table.tabulate d n f) d a = if a < n then f a else d := by
  simp [Table.tabulate, Table.read_tabulateFrom]

theorem Table.wfFrom_tabulateFrom (d : α) (f : Nat → α) (n k size : Nat) (h : k + n ≤ size) :
    Table.wfFrom d size k (Table.tabulateFrom d f k n) = true := by
  induction n generalizing k with
  | zero => rfl
  | succ n ih =>
    unfold Table.tabulateFrom
    split
    · exact Table.wfFrom_mono d size _ (Nat.le_succ k) (ih (k + 1) (by omega))
    · next hf =>
      simp only [Table.wfFrom, Bool.and_eq_true, decide_eq_true_eq]
      exact ⟨⟨⟨Nat.le_refl k, by omega⟩, hf⟩, ih (k + 1) (by omega)⟩

/-- A tabulated table is canonical. -/
theorem Table.wf_tabulate (d : α) (n : Nat) (f : Nat → α) : (Table.tabulate d n f).wf d n = true :=
  Table.wfFrom_tabulateFrom d f n 0 n (by omega)

/-- Clipping gives a canonical table. -/
theorem Table.wf_clip (d : α) (n : Nat) (t : Table α) : (Table.clip d n t).wf d n = true := by
  induction t with
  | nil => rfl
  | cons e t ih =>
    obtain ⟨k, v⟩ := e
    unfold Table.clip
    split
    · next hk => exact Table.wf_write d v _ hk ih
    · exact ih

/-- Clipping keeps the cells below `n`. -/
theorem Table.read_clip (d : α) (n : Nat) (t : Table α) (a : Nat) :
    Table.read (Table.clip d n t) d a = if a < n then Table.read t d a else d := by
  induction t with
  | nil => simp [Table.clip]
  | cons e t ih =>
    obtain ⟨k, v⟩ := e
    unfold Table.clip
    split
    · next hk =>
      rw [Table.read_write, ih]
      by_cases hka : k = a
      · subst hka; simp [Table.read, hk]
      · simp [Table.read, hka]
    · next hk =>
      rw [ih]
      by_cases ha : a < n
      · have hka : k ≠ a := by omega
        simp [Table.read, hka, ha]
      · simp [ha]

end Sys2Proof.Machine
end

