-- ==== Sys2Proof/Laws/Bus.lean ====
section
/-! SUPPORT. What one bus access can do (BusReadFrame, BusWriteFrame), and the accesses to work RAM and the stack in closed form:
the lemmas a proof about an instruction cites instead of unfolding `rd`, `wr`, `push` and `pull`. -/

namespace Sys2Proof.Machine

theorem BusReadFrame.refl (s : State) : BusReadFrame s s := ⟨rfl, rfl, fun _ h => h⟩

theorem BusReadFrame.trans {s t u : State} (h : BusReadFrame s t) (k : BusReadFrame t u) : BusReadFrame s u where
  core := by rw [k.core, h.core]
  ppu := by rw [k.ppu, h.ppu]
  cart r hr := k.cart r (h.cart r hr)

theorem Cart.ciramEnabled_reference (r : RefCart) (a : PpuAddr) :
    (Cart.reference r).ciramEnabled a = (decide (0x2000 ≤ a.toNat), .reference r) := rfl

theorem Cart.ciramA10_reference (r : RefCart) (a : PpuAddr) : ((Cart.reference r).ciramA10 a).2 = .reference r := rfl

/-- Reading the PPU bus under the palette changes the cartridge's own state only. -/
theorem State.ppuReadUnder_snd (s : State) (a : PpuAddr) :
    ∃ c, (s.ppuReadUnder a).2 = { s with cart := c } ∧ ∀ r, s.cart = .reference r → c = .reference r := by
  unfold State.ppuReadUnder
  dsimp only
  split
  · refine ⟨_, rfl, fun r h => ?_⟩
    rw [h]
    rfl
  · refine ⟨_, rfl, fun r h => ?_⟩
    rw [h]
    rfl

/-- Reading the PPU bus changes the cartridge's own state only. -/
theorem State.ppuRead_snd (s : State) (a : PpuAddr) :
    ∃ c, (s.ppuRead a).2 = { s with cart := c } ∧ ∀ r, s.cart = .reference r → c = .reference r := by
  unfold State.ppuRead
  split
  · exact ⟨s.cart, rfl, fun _ h => h⟩
  · exact s.ppuReadUnder_snd a

theorem State.readData_frame (s : State) : BusReadFrame s s.readData.2 := by
  unfold State.readData
  dsimp only
  split
  · obtain ⟨c, hc, hr⟩ := s.ppuReadUnder_snd (BitVec.setWidth 14 s.ppu.v &&& 0x2FFF#14)
    simp only [hc]
    exact ⟨rfl, rfl, hr⟩
  · obtain ⟨c, hc, hr⟩ := s.ppuRead_snd (BitVec.setWidth 14 s.ppu.v)
    simp only [hc]
    exact ⟨rfl, rfl, hr⟩

theorem State.ppuRegRead_frame (s : State) (r : Nat) : BusReadFrame s (s.ppuRegRead r).2 := by
  unfold State.ppuRegRead
  split
  · exact ⟨rfl, rfl, fun _ h => h⟩
  · exact BusReadFrame.refl s
  · exact s.readData_frame
  · exact BusReadFrame.refl s

/-- EVERYTHING A BUS READ CAN CHANGE (20 R204, R223). -/
theorem State.rd_frame (s : State) (a : Addr) : BusReadFrame s (s.rd a).2 := by
  unfold State.rd
  split
  · exact BusReadFrame.refl s
  · split
    · exact s.ppuRegRead_frame _
    · split
      · unfold State.readIo
        split
        · exact ⟨rfl, rfl, fun _ h => h⟩
        · split
          · exact ⟨rfl, rfl, fun _ h => h⟩
          · exact ⟨rfl, rfl, fun _ h => h⟩
      · refine ⟨rfl, rfl, fun r h => ?_⟩
        rw [h]
        rfl

/-- A read of work RAM: the cell, and no side effect (20 R201, R223). -/
theorem State.rd_ram (s : State) {a : Addr} (h : a.toNat < 0x2000) :
    s.rd a = (Table.read s.ram 0 (a.toNat % 0x800), s) := by
  simp [State.rd, h]

/-- A write of work RAM (20 R201). -/
theorem State.wr_ram (s : State) {a : Addr} (d : Byte) (h : a.toNat < 0x2000) :
    s.wr a d = { s with ram := Table.write s.ram 0 (a.toNat % 0x800) d } := by
  simp [State.wr, h]

theorem zeroPage_toNat (z : Byte) : (zeroPage z).toNat = z.toNat := by
  have := z.isLt
  simp [zeroPage, BitVec.toNat_setWidth]
  omega

theorem State.rd_zeroPage (s : State) (z : Byte) : s.rd (zeroPage z) = (Table.read s.ram 0 z.toNat, s) := by
  have := z.isLt
  rw [State.rd_ram s (by rw [zeroPage_toNat]; omega), zeroPage_toNat, Nat.mod_eq_of_lt (by omega)]

/-- A zero-page pointer comes from work RAM without side effect, its high byte from the next cell of page 0 (30 R314, R315). -/
theorem State.readPointer_eq (s : State) (z : Byte) :
    s.readPointer z = (word (Table.read s.ram 0 z.toNat) (Table.read s.ram 0 (z + 1).toNat), s) := by
  simp only [State.readPointer, State.rd_zeroPage]

theorem stackAddr_toNat (sp : Byte) : (stackAddr sp).toNat = 0x100 + sp.toNat := by
  revert sp
  decide

/-- `push` in closed form (41 R430): the stack is work RAM, whatever `SP` holds (41 R438). -/
theorem State.push_eq (s : State) (b : Byte) :
    s.push b = { s with ram := Table.write s.ram 0 (0x100 + s.sp.toNat) b, sp := s.sp - 1 } := by
  have := s.sp.isLt
  unfold State.push
  rw [State.wr_ram s b (by rw [stackAddr_toNat]; omega), stackAddr_toNat, Nat.mod_eq_of_lt (by omega)]

/-- `pull` in closed form (41 R431). -/
theorem State.pull_eq (s : State) :
    s.pull = (Table.read s.ram 0 (0x100 + (s.sp + 1).toNat), { s with sp := s.sp + 1 }) := by
  have := (s.sp + 1).isLt
  unfold State.pull
  rw [State.rd_ram _ (by rw [stackAddr_toNat]; omega), stackAddr_toNat, Nat.mod_eq_of_lt (by omega)]

/-- `push16` in closed form: high byte first (41 R432). -/
theorem State.push16_eq (s : State) (w : Addr) :
    s.push16 w = { s with
      ram := Table.write (Table.write s.ram 0 (0x100 + s.sp.toNat) (hiByte w)) 0 (0x100 + (s.sp - 1).toNat) (loByte w)
      sp := s.sp - 1 - 1 } := by
  simp only [State.push16, State.push_eq]

/-- `pull16` in closed form: low byte first (41 R433). -/
theorem State.pull16_eq (s : State) :
    s.pull16 = (word (Table.read s.ram 0 (0x100 + (s.sp + 1).toNat)) (Table.read s.ram 0 (0x100 + (s.sp + 1 + 1).toNat)),
      { s with sp := s.sp + 1 + 1 }) := by
  simp only [State.pull16, State.pull_eq]

theorem word_toNat (lo hi : Byte) : (word lo hi).toNat = lo.toNat + 256 * hi.toNat := by
  simp only [word, BitVec.toNat_append]
  rw [← Nat.shiftLeft_add_eq_or_of_lt lo.isLt, Nat.shiftLeft_eq]
  omega

theorem loByte_toNat (w : Addr) : (loByte w).toNat = w.toNat % 256 := BitVec.toNat_setWidth _ _

theorem hiByte_toNat (w : Addr) : (hiByte w).toNat = w.toNat / 256 := by
  have := w.isLt
  rw [hiByte, BitVec.toNat_setWidth, BitVec.toNat_ushiftRight, Nat.shiftRight_eq_div_pow]
  omega

@[simp] theorem word_lo_hi (w : Addr) : word (loByte w) (hiByte w) = w := by
  apply BitVec.eq_of_toNat_eq
  rw [word_toNat, loByte_toNat, hiByte_toNat]
  omega

/-- `rd16` reads with bus reads only. -/
theorem State.rd16_frame (s : State) (a : Addr) : BusReadFrame s (s.rd16 a).2 :=
  (s.rd_frame a).trans (State.rd_frame _ _)

/-- Resolving an addressing mode makes bus reads only (30 R303 to R316). -/
theorem State.resolve_frame (s : State) (m : Ea) : BusReadFrame s (s.resolve m).st := by
  cases m with
  | ind a => exact (s.rd_frame a).trans (State.rd_frame _ _)
  | indx z => simpa only [State.resolve, State.readPointer_eq] using BusReadFrame.refl s
  | indy z => simpa only [State.resolve, State.readPointer_eq] using BusReadFrame.refl s
  | _ => exact BusReadFrame.refl s


/-- A PPU bus write in the terms of BusWriteFrame. -/
theorem State.ppuWrite_snd (s : State) (a : PpuAddr) (d : Byte) :
    ∃ c cr bg sp, s.ppuWrite a d = { s with cart := c, ppu := { s.ppu with ciram := cr, bgPal := bg, sprPal := sp } } ∧
      ∀ r, s.cart = .reference r → ∃ chr, c = .reference { r with chr := chr } := by
  unfold State.ppuWrite
  split
  · unfold Ppu.paletteWrite
    split
    · exact ⟨s.cart, s.ppu.ciram, _, s.ppu.sprPal, rfl, fun r h => ⟨r.chr, h⟩⟩
    · exact ⟨s.cart, s.ppu.ciram, s.ppu.bgPal, _, rfl, fun r h => ⟨r.chr, h⟩⟩
  · dsimp only
    split
    · refine ⟨_, _, s.ppu.bgPal, s.ppu.sprPal, rfl, fun r h => ?_⟩
      rw [h]
      exact ⟨r.chr, rfl⟩
    · refine ⟨_, s.ppu.ciram, s.ppu.bgPal, s.ppu.sprPal, rfl, fun r h => ?_⟩
      rw [h]
      exact ⟨_, rfl⟩

/-- What a bus write can change of the PPU and the cartridge, without the address: the part of BusWriteFrame that a PPU register
write has, and a DMA byte too. -/
structure DeviceWriteFrame (s t : State) : Prop where
  core : t = { s with ppu := t.ppu, cart := t.cart, apu := t.apu, pad0 := t.pad0, pad1 := t.pad1 }
  prg : ∀ r, s.cart = .reference r → ∃ chr, t.cart = .reference { r with chr := chr }
  ppu : t.ppu = { s.ppu with
    v := t.ppu.v, t := t.ppu.t, x := t.ppu.x, w := t.ppu.w, ctrl := t.ppu.ctrl, mask := t.ppu.mask, vblank := t.ppu.vblank
    oamAddr := t.ppu.oamAddr, readBuf := t.ppu.readBuf, renderingEnabled := t.ppu.renderingEnabled
    ciram := t.ppu.ciram, oam := t.ppu.oam, bgPal := t.ppu.bgPal, sprPal := t.ppu.sprPal }

theorem DeviceWriteFrame.refl (s : State) : DeviceWriteFrame s s := ⟨rfl, fun r h => ⟨r.chr, h⟩, rfl⟩

theorem DeviceWriteFrame.trans {s t u : State} (h : DeviceWriteFrame s t) (k : DeviceWriteFrame t u) :
    DeviceWriteFrame s u where
  core := by rw [k.core, h.core]
  prg r hr := by
    obtain ⟨chr, h1⟩ := h.prg r hr
    obtain ⟨chr', h2⟩ := k.prg _ h1
    exact ⟨chr', h2⟩
  ppu := by rw [k.ppu, h.ppu]

theorem BusReadFrame.toDeviceWrite {s t : State} (h : BusReadFrame s t) : DeviceWriteFrame s t where
  core := h.core
  prg r hr := ⟨r.chr, h.cart r hr⟩
  ppu := by rw [h.ppu]

theorem State.ppuRegWrite_frame (s : State) (r : Nat) (d : Byte) : DeviceWriteFrame s (s.ppuRegWrite r d) := by
  unfold State.ppuRegWrite
  split
  · exact ⟨rfl, fun r h => ⟨r.chr, h⟩, rfl⟩
  · exact ⟨rfl, fun r h => ⟨r.chr, h⟩, rfl⟩
  · exact ⟨rfl, fun r h => ⟨r.chr, h⟩, rfl⟩
  · exact ⟨rfl, fun r h => ⟨r.chr, h⟩, rfl⟩
  · unfold State.writeScroll
    split <;> exact ⟨rfl, fun r h => ⟨r.chr, h⟩, rfl⟩
  · unfold State.writeAddr
    split <;> exact ⟨rfl, fun r h => ⟨r.chr, h⟩, rfl⟩
  · obtain ⟨c, cr, bg, sp, h, hc⟩ := s.ppuWrite_snd (s.ppu.v.setWidth 14) d
    unfold State.writeData
    rw [h]
    exact ⟨rfl, hc, rfl⟩
  · exact DeviceWriteFrame.refl s

theorem State.dmaByte_frame (s : State) (d : Byte) (i : Nat) : DeviceWriteFrame s (s.dmaByte d i) :=
  (s.rd_frame (word (BitVec.ofNat 8 i) d)).toDeviceWrite.trans (State.ppuRegWrite_frame _ 4 _)

theorem State.dma_frame (s : State) (d : Byte) : DeviceWriteFrame s (s.dma d) := by
  unfold State.dma
  generalize List.range 256 = l
  induction l generalizing s with
  | nil => exact DeviceWriteFrame.refl s
  | cons i l ih =>
    exact (s.dmaByte_frame d i).trans (ih _)

theorem DeviceWriteFrame.toBusWrite {s t : State} (h : DeviceWriteFrame s t) {a : Addr}
    (hp : a.toNat < 0x2000 ∨ (0x4000 ≤ a.toNat ∧ a.toNat ≠ 0x4014) → t.ppu = s.ppu) : BusWriteFrame s a t where
  core := by rw [h.core]
  ram k _ := by rw [h.core]
  prg := h.prg
  ppuElsewhere := hp
  ppu := h.ppu

/-- EVERYTHING A BUS WRITE CAN CHANGE (20 R205). -/
theorem State.wr_frame (s : State) (a : Addr) (d : Byte) : BusWriteFrame s a (s.wr a d) := by
  unfold State.wr
  split
  · next h =>
    refine ⟨rfl, fun k hk => ?_, fun r hr => ⟨r.chr, hr⟩, fun _ => rfl, rfl⟩
    exact Table.read_write_other _ _ _ fun e => hk ⟨h, e.symm⟩
  · next h =>
    split
    · next h' => exact (s.ppuRegWrite_frame _ d).toBusWrite fun hp => by omega
    · next h' =>
      split
      · unfold State.writeIo
        split
        · next hd => exact (s.dma_frame d).toBusWrite fun hp => by omega
        · split
          · exact ⟨rfl, fun _ _ => rfl, fun r hr => ⟨r.chr, hr⟩, fun _ => rfl, rfl⟩
          · exact ⟨rfl, fun _ _ => rfl, fun r hr => ⟨r.chr, hr⟩, fun _ => rfl, rfl⟩
      · refine ⟨rfl, fun _ _ => rfl, fun r hr => ⟨r.chr, ?_⟩, fun _ => rfl, rfl⟩
        simp [hr, Cart.cpuWrite]

end Sys2Proof.Machine
end

