-- ==== Sys2Proof/Laws/Dma.lean ====
section
/-! SUPPORT. What an OAM DMA can do (46 R620), said once: a proof about a write to 0x4014 cites these instead of unfolding the
256 transfers. -/

namespace Sys2Proof.Machine

/-- The state after the first `n` transfers of an OAM DMA. -/
def State.dmaTo (s : State) (d : Byte) (n : Nat) : State := (List.range n).foldl (fun s i => s.dmaByte d i) s

theorem State.dmaTo_zero (s : State) (d : Byte) : s.dmaTo d 0 = s := rfl

theorem State.dmaTo_succ (s : State) (d : Byte) (n : Nat) : s.dmaTo d (n + 1) = (s.dmaTo d n).dmaByte d n := by
  simp [State.dmaTo, List.range_succ]

theorem State.dma_eq_dmaTo (s : State) (d : Byte) : s.dma d = s.dmaTo d 256 := rfl

/-- A write to 0x4014 is an OAM DMA and nothing else (20 R203). -/
theorem State.wr_dma (s : State) (d : Byte) : s.wr 0x4014#16 d = s.dmaTo d 256 := by
  simp [State.wr, State.writeIo, State.dma_eq_dmaTo]

/-- The source address of transfer `i` (46 R620). -/
theorem dma_address {i : Nat} (h : i < 256) (d : Byte) :
    word (BitVec.ofNat 8 i) d = BitVec.ofNat 16 (256 * d.toNat + i) := by
  apply BitVec.eq_of_toNat_eq
  rw [word_toNat, BitVec.toNat_ofNat, BitVec.toNat_ofNat]
  omega

/-- One transfer: OAM takes the byte read at `oamAddr`, which goes up by one. -/
theorem State.dmaByte_oam (s : State) (d : Byte) (i : Nat) :
    (s.dmaByte d i).ppu.oam = Table.write s.ppu.oam 0 s.ppu.oamAddr.toNat (s.rd (word (BitVec.ofNat 8 i) d)).1 ∧
    (s.dmaByte d i).ppu.oamAddr = s.ppu.oamAddr + 1 := by
  have h := (s.rd_frame (word (BitVec.ofNat 8 i) d)).ppu
  have ho : (s.rd (word (BitVec.ofNat 8 i) d)).2.ppu.oam = s.ppu.oam := by rw [h]
  have ha : (s.rd (word (BitVec.ofNat 8 i) d)).2.ppu.oamAddr = s.ppu.oamAddr := by rw [h]
  simp [State.dmaByte, State.ppuRegWrite, State.writeOamData, ho, ha]

/-- After `n` transfers `oamAddr` is `n` further on, modulo 256. -/
theorem State.dmaTo_oamAddr (s : State) (d : Byte) (n : Nat) :
    (s.dmaTo d n).ppu.oamAddr = s.ppu.oamAddr + BitVec.ofNat 8 n := by
  induction n with
  | zero => simp [State.dmaTo_zero]
  | succ n ih =>
    rw [State.dmaTo_succ, (State.dmaByte_oam _ d n).2, ih, BitVec.ofNat_add, BitVec.add_assoc]
    rfl

/-- After `n` transfers the byte of read `i` is OAM byte `oamAddr + i`, modulo 256 (46 R620). -/
theorem State.dmaTo_oam (s : State) (d : Byte) {n : Nat} (hn : n ≤ 256) {i : Nat} (hi : i < n) :
    Table.read (s.dmaTo d n).ppu.oam 0 ((s.ppu.oamAddr.toNat + i) % 256)
      = ((s.dmaTo d i).rd (word (BitVec.ofNat 8 i) d)).1 := by
  induction n with
  | zero => omega
  | succ n ih =>
    have ha : (s.dmaTo d n).ppu.oamAddr.toNat = (s.ppu.oamAddr.toNat + n) % 256 := by
      rw [State.dmaTo_oamAddr, BitVec.toNat_add, BitVec.toNat_ofNat]; omega
    rw [State.dmaTo_succ, (State.dmaByte_oam _ d n).1, ha]
    by_cases h : i = n
    · subst h; exact Table.read_write_same ..
    · rw [Table.read_write_other _ _ _ (by omega)]
      exact ih (by omega) (by omega)

/-- An OAM DMA from a page that reads as the bytes `b` without a side effect, whatever OAM holds meanwhile: OAM takes those bytes
from `oamAddr` on, and nothing else changes (46 R620). -/
theorem State.dma_of_quiet (s : State) (d : Byte) (b : Nat → Byte)
    (h : ∀ i, i < 256 → ∀ (o : Memory) (a : Byte),
      ({ s with ppu := { s.ppu with oam := o, oamAddr := a } } : State).rd (word (BitVec.ofNat 8 i) d)
        = (b i, { s with ppu := { s.ppu with oam := o, oamAddr := a } })) :
    s.wr 0x4014#16 d = { s with ppu := { s.ppu with oam := (s.wr 0x4014#16 d).ppu.oam } } ∧
    ∀ i, i < 256 → Table.read (s.wr 0x4014#16 d).ppu.oam 0 ((s.ppu.oamAddr.toNat + i) % 256) = b i := by
  have hq : ∀ n, n ≤ 256 → ∃ o a, s.dmaTo d n = { s with ppu := { s.ppu with oam := o, oamAddr := a } } := by
    intro n hn
    induction n with
    | zero => exact ⟨_, _, rfl⟩
    | succ n ih =>
      obtain ⟨o, a, e⟩ := ih (by omega)
      rw [State.dmaTo_succ, e, State.dmaByte, h n (by omega) o a]
      exact ⟨_, _, rfl⟩
  rw [State.wr_dma]
  refine ⟨?_, fun i hi => ?_⟩
  · have ha := s.dmaTo_oamAddr d 256
    obtain ⟨o, a, e⟩ := hq 256 (Nat.le_refl _)
    rw [e] at ha ⊢
    have : a = s.ppu.oamAddr := by simpa using ha
    rw [this]
  · obtain ⟨o, a, e⟩ := hq i (by omega)
    rw [s.dmaTo_oam d (Nat.le_refl _) hi, e, h i hi]

end Sys2Proof.Machine
end

