-- ==== Sys2Proof/Laws/Exceptions.lean ====
section
/-! SUPPORT. What taking an interrupt and returning from one can do, and that bus accesses do not look at the flags: the lemmas a
proof about an entry, BRK, RTI or an illegal opcode cites. -/

namespace Sys2Proof.Machine

/-- A bus read neither sees nor changes the flags (20 R204). -/
theorem State.rd_withP (s : State) (q : Status) (a : Addr) :
    ({ s with p := q } : State).rd a = ((s.rd a).1, { (s.rd a).2 with p := q }) := by
  unfold State.rd
  split
  · rfl
  · split
    · unfold State.ppuRegRead
      split
      · rfl
      · rfl
      · unfold State.readData State.ppuRead State.ppuReadUnder
        dsimp only
        split
        · split <;> rfl
        · split <;> rfl
      · rfl
    · split
      · unfold State.readIo
        split
        · rfl
        · split <;> rfl
      · rfl

/-- A PPU register write neither sees nor changes the flags (46 R602). -/
theorem State.ppuRegWrite_withP (s : State) (q : Status) (r : Nat) (d : Byte) :
    ({ s with p := q } : State).ppuRegWrite r d = { s.ppuRegWrite r d with p := q } := by
  unfold State.ppuRegWrite
  split
  · rfl
  · rfl
  · rfl
  · rfl
  · unfold State.writeScroll
    dsimp only
    split <;> rfl
  · unfold State.writeAddr
    dsimp only
    split <;> rfl
  · unfold State.writeData State.ppuWrite
    dsimp only
    split
    · rfl
    · split <;> rfl
  · rfl

theorem State.dmaByte_withP (s : State) (q : Status) (d : Byte) (i : Nat) :
    ({ s with p := q } : State).dmaByte d i = { s.dmaByte d i with p := q } := by
  simp only [State.dmaByte, State.rd_withP, State.ppuRegWrite_withP]

theorem State.dma_withP (s : State) (q : Status) (d : Byte) :
    ({ s with p := q } : State).dma d = { s.dma d with p := q } := by
  unfold State.dma
  generalize List.range 256 = l
  induction l generalizing s with
  | nil => rfl
  | cons i l ih => rw [List.foldl_cons, List.foldl_cons, State.dmaByte_withP, ih]

/-- A bus write neither sees nor changes the flags (20 R205). -/
theorem State.wr_withP (s : State) (q : Status) (a : Addr) (d : Byte) :
    ({ s with p := q } : State).wr a d = { s.wr a d with p := q } := by
  unfold State.wr
  split
  · rfl
  · split
    · exact s.ppuRegWrite_withP q _ d
    · split
      · unfold State.writeIo
        split
        · exact s.dma_withP q d
        · split <;> rfl
      · rfl

/-- EVERYTHING A VECTOR FETCH CAN DO (20 R208): two bus reads, then `PC`. -/
theorem State.jumpVector_frame (s : State) (vec : Addr) :
    ∃ u, BusReadFrame s u ∧ s.jumpVector vec = { u with pc := (s.rd16 vec).1 } :=
  ⟨(s.rd16 vec).2, s.rd16_frame vec, rfl⟩

/-- EVERYTHING AN INTERRUPT ENTRY CAN DO (60 R800): it writes at most three stack bytes, `SP`, `I`, `PC` and `cycle`, and makes two
bus reads. -/
theorem State.enter_frame (s : State) (vec : Addr) (pushPC pushP : Bool) :
    ∃ ram sp p u, BusReadFrame { s with ram := ram, sp := sp, p := p } u ∧
      (p = s.p ∨ p = { s.p with i := true }) ∧
      ∃ pc, s.enter vec pushPC pushP = { u with pc := pc, cycle := s.cycle + 7 } := by
  have key : ∀ (t : State), (∃ ram sp, t = { s with ram := ram, sp := sp }) →
      ∃ ram sp p u, BusReadFrame { s with ram := ram, sp := sp, p := p } u ∧
        (p = s.p ∨ p = { s.p with i := true }) ∧
        ∃ pc, (t.entrySetsI.jumpVector vec).charge 7 = { u with pc := pc, cycle := s.cycle + 7 } := by
    rintro t ⟨ram, sp, rfl⟩
    have hp : ∃ p, State.entrySetsI { s with ram := ram, sp := sp } = { s with ram := ram, sp := sp, p := p } ∧
        (p = s.p ∨ p = { s.p with i := true }) := by
      unfold State.entrySetsI
      split
      · exact ⟨_, rfl, .inr rfl⟩
      · exact ⟨_, rfl, .inl rfl⟩
    obtain ⟨p, he, hp⟩ := hp
    obtain ⟨u, hf, hu⟩ := State.jumpVector_frame ({ s with ram := ram, sp := sp, p := p } : State) vec
    have hc : u.cycle = s.cycle := by rw [hf.core]
    exact ⟨ram, sp, p, u, hf, hp, _, by rw [he, hu, State.charge, hc]⟩
  apply key
  cases pushPC <;> cases pushP <;> simp only [State.push16_eq, State.push_eq, Bool.false_eq_true, if_true, if_false] <;>
    exact ⟨_, _, rfl⟩

/-- RETURN FROM AN INTERRUPT in closed form (44 R513, 60 R811). -/
theorem State.returnFromInterrupt_eq (s : State) :
    s.returnFromInterrupt = { s with
      p := Status.ofByte (Table.read s.ram 0 (0x100 + (s.sp + 1).toNat))
      pc := word (Table.read s.ram 0 (0x100 + (s.sp + 1 + 1).toNat)) (Table.read s.ram 0 (0x100 + (s.sp + 1 + 1 + 1).toNat))
      sp := s.sp + 1 + 1 + 1 } := by
  simp only [State.returnFromInterrupt, State.pull_eq, State.pull16_eq]

/-- THE SOFTWARE ENTRY OF BRK as pushes and a vector fetch (44 R514). -/
theorem State.softwareEntry_eq (s : State) :
    s.softwareEntry = State.jumpVector { s with
      ram := Table.write (Table.write (Table.write s.ram 0 (0x100 + s.sp.toNat) (hiByte (s.pc + 1)))
        0 (0x100 + (s.sp - 1).toNat) (loByte (s.pc + 1))) 0 (0x100 + (s.sp - 1 - 1).toNat) s.p.pushedByInstr
      sp := s.sp - 1 - 1 - 1
      p := { s.p with i := true } } irqVector := by
  simp only [State.softwareEntry, State.push16_eq, State.push_eq]

end Sys2Proof.Machine
end

