-- ==== Sys2Proof/Laws/PerInstr.lean ====
section
/-! SUPPORT. Statements made of every instruction: the family Shape, that an instruction is encoded in as many bytes as its mode
has (30 R300, R301). -/

namespace Sys2Proof.Laws.Shape

/-- A well-formed instruction is encoded in as many bytes as its mode has. -/
def Statement (i : Instr) : Prop :=
  i.wf = true → (encode i).length = i.mode.length

theorem ldaIndX (z : Byte) : Statement (.ldaIndX z) := fun _ => rfl
theorem ldaZp (z : Byte) : Statement (.ldaZp z) := fun _ => rfl
theorem ldaImm (v : Byte) : Statement (.ldaImm v) := fun _ => rfl
theorem ldaAbs (a : Addr) : Statement (.ldaAbs a) := fun _ => rfl
theorem ldaIndY (z : Byte) : Statement (.ldaIndY z) := fun _ => rfl
theorem ldaZpX (z : Byte) : Statement (.ldaZpX z) := fun _ => rfl
theorem ldaAbsY (a : Addr) : Statement (.ldaAbsY a) := fun _ => rfl
theorem ldaAbsX (a : Addr) : Statement (.ldaAbsX a) := fun _ => rfl
theorem ldxImm (v : Byte) : Statement (.ldxImm v) := fun _ => rfl
theorem ldxZp (z : Byte) : Statement (.ldxZp z) := fun _ => rfl
theorem ldxAbs (a : Addr) : Statement (.ldxAbs a) := fun _ => rfl
theorem ldxZpY (z : Byte) : Statement (.ldxZpY z) := fun _ => rfl
theorem ldxAbsY (a : Addr) : Statement (.ldxAbsY a) := fun _ => rfl
theorem ldyImm (v : Byte) : Statement (.ldyImm v) := fun _ => rfl
theorem ldyZp (z : Byte) : Statement (.ldyZp z) := fun _ => rfl
theorem ldyAbs (a : Addr) : Statement (.ldyAbs a) := fun _ => rfl
theorem ldyZpX (z : Byte) : Statement (.ldyZpX z) := fun _ => rfl
theorem ldyAbsX (a : Addr) : Statement (.ldyAbsX a) := fun _ => rfl
theorem staIndX (z : Byte) : Statement (.staIndX z) := fun _ => rfl
theorem staZp (z : Byte) : Statement (.staZp z) := fun _ => rfl
theorem staAbs (a : Addr) : Statement (.staAbs a) := fun _ => rfl
theorem staIndY (z : Byte) : Statement (.staIndY z) := fun _ => rfl
theorem staZpX (z : Byte) : Statement (.staZpX z) := fun _ => rfl
theorem staAbsY (a : Addr) : Statement (.staAbsY a) := fun _ => rfl
theorem staAbsX (a : Addr) : Statement (.staAbsX a) := fun _ => rfl
theorem stxZp (z : Byte) : Statement (.stxZp z) := fun _ => rfl
theorem stxAbs (a : Addr) : Statement (.stxAbs a) := fun _ => rfl
theorem stxZpY (z : Byte) : Statement (.stxZpY z) := fun _ => rfl
theorem styZp (z : Byte) : Statement (.styZp z) := fun _ => rfl
theorem styAbs (a : Addr) : Statement (.styAbs a) := fun _ => rfl
theorem styZpX (z : Byte) : Statement (.styZpX z) := fun _ => rfl
theorem tax : Statement .tax := fun _ => rfl
theorem tay : Statement .tay := fun _ => rfl
theorem txa : Statement .txa := fun _ => rfl
theorem tya : Statement .tya := fun _ => rfl
theorem tsx : Statement .tsx := fun _ => rfl
theorem txs : Statement .txs := fun _ => rfl
theorem pha : Statement .pha := fun _ => rfl
theorem php : Statement .php := fun _ => rfl
theorem pla : Statement .pla := fun _ => rfl
theorem plp : Statement .plp := fun _ => rfl
theorem adcIndX (z : Byte) : Statement (.adcIndX z) := fun _ => rfl
theorem adcZp (z : Byte) : Statement (.adcZp z) := fun _ => rfl
theorem adcImm (v : Byte) : Statement (.adcImm v) := fun _ => rfl
theorem adcAbs (a : Addr) : Statement (.adcAbs a) := fun _ => rfl
theorem adcIndY (z : Byte) : Statement (.adcIndY z) := fun _ => rfl
theorem adcZpX (z : Byte) : Statement (.adcZpX z) := fun _ => rfl
theorem adcAbsY (a : Addr) : Statement (.adcAbsY a) := fun _ => rfl
theorem adcAbsX (a : Addr) : Statement (.adcAbsX a) := fun _ => rfl
theorem sbcIndX (z : Byte) : Statement (.sbcIndX z) := fun _ => rfl
theorem sbcZp (z : Byte) : Statement (.sbcZp z) := fun _ => rfl
theorem sbcImm (v : Byte) : Statement (.sbcImm v) := fun _ => rfl
theorem sbcAbs (a : Addr) : Statement (.sbcAbs a) := fun _ => rfl
theorem sbcIndY (z : Byte) : Statement (.sbcIndY z) := fun _ => rfl
theorem sbcZpX (z : Byte) : Statement (.sbcZpX z) := fun _ => rfl
theorem sbcAbsY (a : Addr) : Statement (.sbcAbsY a) := fun _ => rfl
theorem sbcAbsX (a : Addr) : Statement (.sbcAbsX a) := fun _ => rfl
theorem cmpIndX (z : Byte) : Statement (.cmpIndX z) := fun _ => rfl
theorem cmpZp (z : Byte) : Statement (.cmpZp z) := fun _ => rfl
theorem cmpImm (v : Byte) : Statement (.cmpImm v) := fun _ => rfl
theorem cmpAbs (a : Addr) : Statement (.cmpAbs a) := fun _ => rfl
theorem cmpIndY (z : Byte) : Statement (.cmpIndY z) := fun _ => rfl
theorem cmpZpX (z : Byte) : Statement (.cmpZpX z) := fun _ => rfl
theorem cmpAbsY (a : Addr) : Statement (.cmpAbsY a) := fun _ => rfl
theorem cmpAbsX (a : Addr) : Statement (.cmpAbsX a) := fun _ => rfl
theorem cpxImm (v : Byte) : Statement (.cpxImm v) := fun _ => rfl
theorem cpxZp (z : Byte) : Statement (.cpxZp z) := fun _ => rfl
theorem cpxAbs (a : Addr) : Statement (.cpxAbs a) := fun _ => rfl
theorem cpyImm (v : Byte) : Statement (.cpyImm v) := fun _ => rfl
theorem cpyZp (z : Byte) : Statement (.cpyZp z) := fun _ => rfl
theorem cpyAbs (a : Addr) : Statement (.cpyAbs a) := fun _ => rfl
theorem incZp (z : Byte) : Statement (.incZp z) := fun _ => rfl
theorem incAbs (a : Addr) : Statement (.incAbs a) := fun _ => rfl
theorem incZpX (z : Byte) : Statement (.incZpX z) := fun _ => rfl
theorem incAbsX (a : Addr) : Statement (.incAbsX a) := fun _ => rfl
theorem inx : Statement .inx := fun _ => rfl
theorem iny : Statement .iny := fun _ => rfl
theorem decZp (z : Byte) : Statement (.decZp z) := fun _ => rfl
theorem decAbs (a : Addr) : Statement (.decAbs a) := fun _ => rfl
theorem decZpX (z : Byte) : Statement (.decZpX z) := fun _ => rfl
theorem decAbsX (a : Addr) : Statement (.decAbsX a) := fun _ => rfl
theorem dex : Statement .dex := fun _ => rfl
theorem dey : Statement .dey := fun _ => rfl
theorem andIndX (z : Byte) : Statement (.andIndX z) := fun _ => rfl
theorem andZp (z : Byte) : Statement (.andZp z) := fun _ => rfl
theorem andImm (v : Byte) : Statement (.andImm v) := fun _ => rfl
theorem andAbs (a : Addr) : Statement (.andAbs a) := fun _ => rfl
theorem andIndY (z : Byte) : Statement (.andIndY z) := fun _ => rfl
theorem andZpX (z : Byte) : Statement (.andZpX z) := fun _ => rfl
theorem andAbsY (a : Addr) : Statement (.andAbsY a) := fun _ => rfl
theorem andAbsX (a : Addr) : Statement (.andAbsX a) := fun _ => rfl
theorem oraIndX (z : Byte) : Statement (.oraIndX z) := fun _ => rfl
theorem oraZp (z : Byte) : Statement (.oraZp z) := fun _ => rfl
theorem oraImm (v : Byte) : Statement (.oraImm v) := fun _ => rfl
theorem oraAbs (a : Addr) : Statement (.oraAbs a) := fun _ => rfl
theorem oraIndY (z : Byte) : Statement (.oraIndY z) := fun _ => rfl
theorem oraZpX (z : Byte) : Statement (.oraZpX z) := fun _ => rfl
theorem oraAbsY (a : Addr) : Statement (.oraAbsY a) := fun _ => rfl
theorem oraAbsX (a : Addr) : Statement (.oraAbsX a) := fun _ => rfl
theorem eorIndX (z : Byte) : Statement (.eorIndX z) := fun _ => rfl
theorem eorZp (z : Byte) : Statement (.eorZp z) := fun _ => rfl
theorem eorImm (v : Byte) : Statement (.eorImm v) := fun _ => rfl
theorem eorAbs (a : Addr) : Statement (.eorAbs a) := fun _ => rfl
theorem eorIndY (z : Byte) : Statement (.eorIndY z) := fun _ => rfl
theorem eorZpX (z : Byte) : Statement (.eorZpX z) := fun _ => rfl
theorem eorAbsY (a : Addr) : Statement (.eorAbsY a) := fun _ => rfl
theorem eorAbsX (a : Addr) : Statement (.eorAbsX a) := fun _ => rfl
theorem bitZp (z : Byte) : Statement (.bitZp z) := fun _ => rfl
theorem bitAbs (a : Addr) : Statement (.bitAbs a) := fun _ => rfl
theorem aslZp (z : Byte) : Statement (.aslZp z) := fun _ => rfl
theorem aslAcc : Statement .aslAcc := fun _ => rfl
theorem aslAbs (a : Addr) : Statement (.aslAbs a) := fun _ => rfl
theorem aslZpX (z : Byte) : Statement (.aslZpX z) := fun _ => rfl
theorem aslAbsX (a : Addr) : Statement (.aslAbsX a) := fun _ => rfl
theorem lsrZp (z : Byte) : Statement (.lsrZp z) := fun _ => rfl
theorem lsrAcc : Statement .lsrAcc := fun _ => rfl
theorem lsrAbs (a : Addr) : Statement (.lsrAbs a) := fun _ => rfl
theorem lsrZpX (z : Byte) : Statement (.lsrZpX z) := fun _ => rfl
theorem lsrAbsX (a : Addr) : Statement (.lsrAbsX a) := fun _ => rfl
theorem rolZp (z : Byte) : Statement (.rolZp z) := fun _ => rfl
theorem rolAcc : Statement .rolAcc := fun _ => rfl
theorem rolAbs (a : Addr) : Statement (.rolAbs a) := fun _ => rfl
theorem rolZpX (z : Byte) : Statement (.rolZpX z) := fun _ => rfl
theorem rolAbsX (a : Addr) : Statement (.rolAbsX a) := fun _ => rfl
theorem rorZp (z : Byte) : Statement (.rorZp z) := fun _ => rfl
theorem rorAcc : Statement .rorAcc := fun _ => rfl
theorem rorAbs (a : Addr) : Statement (.rorAbs a) := fun _ => rfl
theorem rorZpX (z : Byte) : Statement (.rorZpX z) := fun _ => rfl
theorem rorAbsX (a : Addr) : Statement (.rorAbsX a) := fun _ => rfl
theorem jmpAbs (a : Addr) : Statement (.jmpAbs a) := fun _ => rfl
theorem jmpInd (a : Addr) : Statement (.jmpInd a) := fun _ => rfl
theorem jsr (a : Addr) : Statement (.jsr a) := fun _ => rfl
theorem rts : Statement .rts := fun _ => rfl
theorem rti : Statement .rti := fun _ => rfl
theorem brk : Statement .brk := fun _ => rfl
theorem bcc (o : Byte) : Statement (.bcc o) := fun _ => rfl
theorem bcs (o : Byte) : Statement (.bcs o) := fun _ => rfl
theorem beq (o : Byte) : Statement (.beq o) := fun _ => rfl
theorem bne (o : Byte) : Statement (.bne o) := fun _ => rfl
theorem bmi (o : Byte) : Statement (.bmi o) := fun _ => rfl
theorem bpl (o : Byte) : Statement (.bpl o) := fun _ => rfl
theorem bvc (o : Byte) : Statement (.bvc o) := fun _ => rfl
theorem bvs (o : Byte) : Statement (.bvs o) := fun _ => rfl
theorem clc : Statement .clc := fun _ => rfl
theorem sec : Statement .sec := fun _ => rfl
theorem cli : Statement .cli := fun _ => rfl
theorem sei : Statement .sei := fun _ => rfl
theorem cld : Statement .cld := fun _ => rfl
theorem sed : Statement .sed := fun _ => rfl
theorem clv : Statement .clv := fun _ => rfl
theorem nop : Statement .nop := fun _ => rfl
theorem illegal (op : Byte) : Statement (.illegal op) := fun _ => rfl

end Sys2Proof.Laws.Shape
end

