-- ==== Sys2Proof/Laws/Pipeline.lean ====
section
/-! SUPPORT. What one operation of the schedule, one schedule entry and one step can do, said once. -/

namespace Sys2Proof.Machine

/-- What an operation of the PPU or the Scheduler other than `doVBlank` can change: the PPU, the cartridge's own state, and what the
sink has received; no register of the CPU, no work RAM, no place of the Scheduler. -/
structure PipelineFrame (s t : State) : Prop where
  core : t = { s with ppu := t.ppu, cart := t.cart, framesDone := t.framesDone, lastFrame := t.lastFrame }
  cart : ∀ r, s.cart = .reference r → t.cart = .reference r

theorem PipelineFrame.refl (s : State) : PipelineFrame s s := ⟨rfl, fun _ h => h⟩

theorem PipelineFrame.trans {s t u : State} (h : PipelineFrame s t) (k : PipelineFrame t u) : PipelineFrame s u where
  core := by rw [k.core, h.core]
  cart r hr := k.cart r (h.cart r hr)

theorem PipelineFrame.ppuRead (s : State) (a : PpuAddr) : PipelineFrame s (s.ppuRead a).2 := by
  obtain ⟨c, hc, hr⟩ := s.ppuRead_snd a
  rw [hc]
  exact ⟨rfl, hr⟩

theorem PipelineFrame.withPpu (s : State) (p : Ppu) : PipelineFrame s { s with ppu := p } := ⟨rfl, fun _ h => h⟩

theorem State.scroll_frame (s : State) (f : VAddr → VAddr → VAddr) : PipelineFrame s (s.scroll f) := by
  unfold State.scroll
  split
  · exact .withPpu s _
  · exact .refl s

theorem State.fetchTile_frame (s : State) : PipelineFrame s s.fetchTile := by
  unfold State.fetchTile
  dsimp only
  split
  · exact ((((PipelineFrame.ppuRead s _).trans (.ppuRead _ _)).trans (.ppuRead _ _)).trans (.ppuRead _ _)).trans
      ((PipelineFrame.withPpu _ _).trans (State.scroll_frame _ _))
  · exact .withPpu s _

theorem State.fetchSprite_frame (s : State) (i line : Nat) : PipelineFrame s (s.fetchSprite i line) := by
  unfold State.fetchSprite
  dsimp only
  split
  · have h := fun a b => (PipelineFrame.ppuRead s a).trans (.ppuRead (s.ppuRead a).2 b)
    split
    · exact (h _ _).trans (.withPpu _ _)
    · split
      · exact (h _ _).trans (.withPpu _ _)
      · exact (h _ _).trans (.withPpu _ _)
  · exact .refl s

theorem State.renderTile_frame (s : State) (line k : Nat) : PipelineFrame s (s.renderTile line k) := by
  unfold State.renderTile
  generalize List.range 8 = l
  induction l generalizing s with
  | nil => exact .refl s
  | cons i l ih => exact (PipelineFrame.withPpu s _).trans (ih _)

/-- EVERYTHING A SCHEDULED OPERATION CAN CHANGE, `doVBlank` aside (49 R704). -/
theorem State.perform_frame (s : State) {op : SchedOp} (h : op ≠ .doVBlank) : PipelineFrame s (s.perform op) := by
  cases op with
  | doVBlank => exact absurd rfl h
  | clearSecondaryOAM => exact .withPpu s _
  | evaluateSprites =>
    unfold State.perform State.evaluateSprites
    dsimp only
    split
    · exact .withPpu s _
    · exact .refl s
  | clearSpriteLayers => exact .withPpu s _
  | fetchSprite i => exact s.fetchSprite_frame i _
  | renderTile k => exact s.renderTile_frame _ k
  | fetchTile => exact s.fetchTile_frame
  | incrementY => exact s.scroll_frame fun v _ => incY v
  | resetX => exact s.scroll_frame copyX
  | resetY => exact s.scroll_frame copyY
  | frameDone => exact ⟨rfl, fun _ h => h⟩
  | endVBlank => exact .withPpu s _

/-- Every schedule lists `doVBlank` on scanline 241 only (49 R710 to R715). -/
theorem doVBlank_not_mem {line : Nat} (h : line ≠ 241) {e : Entry} (he : e ∈ sched line) : SchedOp.doVBlank ∉ e.ops := by
  have hv : ∀ e ∈ visibleSched, SchedOp.doVBlank ∉ e.ops := by decide
  have hp : ∀ e ∈ preRenderSched, SchedOp.doVBlank ∉ e.ops := by decide
  have hs : ∀ ops, e ∈ [(⟨0, ops⟩ : Entry)] → e.ops = ops := fun ops h => by rw [List.mem_singleton.1 h]
  unfold sched at he
  split at he
  · exact hv e he
  · split at he
    · rw [hs _ he]; decide
    · split at he
      · exact hp e he
      · rw [hs _ he]; decide

/-- EVERYTHING AN ENTRY CAN CHANGE off scanline 241. -/
theorem State.performAll_frame (s : State) {ops : List SchedOp} (h : SchedOp.doVBlank ∉ ops) :
    PipelineFrame s (ops.foldl State.perform s) := by
  induction ops generalizing s with
  | nil => exact .refl s
  | cons op ops ih =>
    rw [List.mem_cons, not_or] at h
    exact (s.perform_frame (fun he => h.1 he.symm)).trans (ih _ h.2)

end Sys2Proof.Machine
end

