-- ==== Sys2Proof/Laws/Shapes.lean ====
section
/-! SUPPORT. What each instruction shape of Operands.lean can do, said once: a proof about an instruction cites the shape's lemma
instead of unfolding it. -/

namespace Sys2Proof.Machine

/-- Every mode but JMP's indirect one is resolved without changing the state: its pointer reads are work RAM reads (30 R306 to
R315). -/
theorem State.resolve_st (s : State) {m : Ea} (h : ∀ a, m ≠ .ind a) : (s.resolve m).st = s := by
  cases m with
  | ind a => exact absurd rfl (h a)
  | indx z => simp only [State.resolve, State.readPointer_eq]
  | indy z => simp only [State.resolve, State.readPointer_eq]
  | _ => rfl

/-- A read instruction on memory: one bus read, then the operation, then the cost (30 R317). -/
theorem readMem_cases (m : Ea) (base : Nat) (penalty : Bool) (op : Byte → State → State) (s : State) :
    ∃ b u n, BusReadFrame s u ∧ readMem m base penalty op s = .next ((op b u).charge n) ∧
      (n = base ∨ (n = base + 1 ∧ penalty = true ∧ (s.resolve m).crossed = true)) := by
  refine ⟨_, _, _, (s.resolve_frame m).trans (State.rd_frame _ _), rfl, ?_⟩
  cases penalty <;> cases (s.resolve m).crossed <;> simp

/-- A store: one bus write, then the cost; nothing is read at the effective address (30 R317). -/
theorem storeMem_eq {m : Ea} (h : ∀ a, m ≠ .ind a) (base : Nat) (reg : State → Byte) (s : State) :
    storeMem m base reg s = .next { s.wr (s.resolve m).ea (reg s) with
      cycle := s.cycle + (base + s.dmaStall (s.resolve m).ea) } := by
  have hc : (s.wr (s.resolve m).ea (reg s)).cycle = s.cycle := by rw [(s.wr_frame _ _).core]
  simp only [storeMem, s.resolve_st h, State.charge, hc]

/-- A read-modify-write on memory: one bus read, one bus write of the same address, the flags, then the cost (20 R222, 30 R317). -/
theorem modifyMem_eq {m : Ea} (h : ∀ a, m ≠ .ind a) (base : Nat) (op : Modify) (s : State) :
    modifyMem m base op s = .next { (s.rd (s.resolve m).ea).2.wr (s.resolve m).ea (op (s.rd (s.resolve m).ea).1 s.p).1 with
      p := (op (s.rd (s.resolve m).ea).1 s.p).2
      cycle := s.cycle + (base + s.dmaStall (s.resolve m).ea) } := by
  have hr := s.rd_frame (s.resolve m).ea
  have hp : (s.rd (s.resolve m).ea).2.p = s.p := by rw [hr.core]
  have hc : (s.rd (s.resolve m).ea).2.cycle = s.cycle := by rw [hr.core]
  have hw : ∀ d, ((s.rd (s.resolve m).ea).2.wr (s.resolve m).ea d).cycle = s.cycle := fun d => by
    rw [((s.rd (s.resolve m).ea).2.wr_frame _ d).core, hc]
  have hd : (s.rd (s.resolve m).ea).2.dmaStall (s.resolve m).ea = s.dmaStall (s.resolve m).ea := by
    simp only [State.dmaStall, hc]
  simp only [modifyMem, s.resolve_st h, hp, hd, State.wr_withP, State.charge, hw]

/-- A branch changes `PC` and `cycle` alone (44 R515). -/
theorem branch_cases (o : Byte) (cond : State → Bool) (s : State) :
    ∃ pc n, branch o cond s = .next { s with pc := pc, cycle := s.cycle + n } ∧ 2 ≤ n ∧ n ≤ 4 := by
  unfold branch
  dsimp only
  split
  · refine ⟨_, _, rfl, ?_, ?_⟩ <;> split <;> omega
  · exact ⟨_, _, rfl, by omega, by omega⟩

end Sys2Proof.Machine
end

