-- ==== Sys2Proof/Laws/Step.lean ====
section
/-! SUPPORT. What a step can be: the inversion lemma from which a property of every step is proved case by case. -/

namespace Sys2Proof.Machine

/-- The state with the agenda's first place used up. -/
def State.afterCall (s : State) : State := { s with agenda := s.agenda.tail }

/-- EVERYTHING A STEP THAT ANSWERS A STATE CAN BE (49 R706, 60 R812): one of the environment's three calls, one instruction when the
CPU is due, or one schedule entry when it is not. -/
theorem step_cases {s t : State} (h : step s = .next t) :
    (s.agenda.head? = some .irq ∧ t = s.afterCall.doIRQ) ∨
    (s.agenda.head? = some .reset ∧ t = s.afterCall.doReset) ∨
    (s.agenda.head? = some .powerOn ∧ t = s.afterCall.rePowerOn) ∨
    ((s.agenda = [] ∨ s.agenda.head? = some .step) ∧
      ((s.cpuDue = true ∧ ∃ v, exec s.afterCall.fetch.1 s.afterCall.fetch.2 = .next v ∧ t = s.afterCall.tickApu v) ∨
       (s.cpuDue = false ∧ t = s.afterCall.ppuStep))) := by
  have run : ∀ {u : State}, u.machineStep = .next t → u.cpuDue = s.cpuDue → u = s.afterCall →
      ((s.cpuDue = true ∧ ∃ v, exec s.afterCall.fetch.1 s.afterCall.fetch.2 = .next v ∧ t = s.afterCall.tickApu v) ∨
       (s.cpuDue = false ∧ t = s.afterCall.ppuStep)) := by
    rintro u hm hd rfl
    unfold State.machineStep at hm
    rw [hd] at hm
    cases hc : s.cpuDue with
    | true =>
      rw [hc, if_pos rfl] at hm
      unfold State.cpuStep at hm
      split at hm
      · rename_i v hv
        exact .inl ⟨rfl, v, hv, by injection hm with hm; exact hm.symm⟩
      · cases hm
      · cases hm
    | false =>
      rw [hc, if_neg (by decide)] at hm
      injection hm with hm
      exact .inr ⟨rfl, hm.symm⟩
  unfold step at h
  split at h
  · rename_i ha
    refine .inr (.inr (.inr ⟨.inl ha, run h rfl ?_⟩))
    cases s; simp only at ha; subst ha; rfl
  · rename_i rest ha
    exact .inr (.inr (.inr ⟨.inr (by rw [ha]; rfl), run h rfl (by simp [State.afterCall, ha])⟩))
  · rename_i rest ha
    injection h with h
    exact .inl ⟨by rw [ha]; rfl, by rw [← h]; simp [State.afterCall, ha]⟩
  · rename_i rest ha
    injection h with h
    exact .inr (.inl ⟨by rw [ha]; rfl, by rw [← h]; simp [State.afterCall, ha]⟩)
  · rename_i rest ha
    injection h with h
    exact .inr (.inr (.inl ⟨by rw [ha]; rfl, by rw [← h]; simp [State.afterCall, ha]⟩))

/-- The memory of the reset state is in canonical form. -/
theorem State.reset_memory_wf : Memory.wf 0x800 State.reset.ram = true ∧ Memory.wf 0x800 State.reset.ppu.ciram = true ∧
    Memory.wf 0x100 State.reset.ppu.oam = true := by
  decide

/-- A work RAM write keeps the canonical form (20 R205). -/
theorem State.wr_ram_wf (s : State) (a : Addr) (d : Byte) (h : Memory.wf 0x800 s.ram = true) :
    Memory.wf 0x800 (s.wr a d).ram = true := by
  by_cases ha : a.toNat < 0x2000
  · rw [s.wr_ram d ha]
    exact Table.wf_write 0 d s.ram (Nat.mod_lt _ (by decide)) h
  · have hr : (s.wr a d).ram = s.ram := by
      unfold State.wr
      rw [if_neg ha]
      split
      · rw [(s.ppuRegWrite_frame _ d).core]
      · split
        · unfold State.writeIo
          split
          · rw [(s.dma_frame d).core]
          · split <;> rfl
        · rfl
    rw [hr]
    exact h

end Sys2Proof.Machine
end

