-- ==== Sys2Proof/Tests/Slice0.lean ====
section
/-! SUPPORT. Tests: ill-formed terms that WellFormed refuses; every constructor's decoding from a word written out from the
encodings of 30 R320 (operand bytes 34 12); one-step tests whose results are the rules' worked examples and 95_test_vectors.md;
and a witness for the hypotheses of every obligation. Each theorem is elaborated in turn, not in parallel. -/

set_option Elab.async false

namespace Sys2Proof.Tests

open Sys2Proof.Machine Sys2Proof.Claims

/-! WellFormed: the one check, refused by an opcode byte that is official. -/

theorem test_wellFormed_refuses_official_byte : (Instr.illegal 0xA9#8).wf = false := by decide
theorem test_wellFormed_refuses_brk_byte : (Instr.illegal 0x00#8).wf = false := by decide
theorem test_wellFormed_accepts_illegal_byte : (Instr.illegal 0x02#8).wf = true := by decide
theorem test_wellFormed_accepts_105 : illegalOpcodes.length = 105 := by decide

/-! Decoding: one written-out word for every constructor (30 R320, R321). -/

theorem test_decode_control_1 :
    decodeTableWord 8 0x00 = some .brk ∧
    decodeTableWord 16 0x3410 = some (.bpl 0x34#8) ∧
    decodeTableWord 24 0x123420 = some (.jsr 0x1234#16) ∧
    decodeTableWord 16 0x3430 = some (.bmi 0x34#8) ∧
    decodeTableWord 8 0x40 = some .rti ∧
    decodeTableWord 24 0x12344C = some (.jmpAbs 0x1234#16) ∧
    decodeTableWord 16 0x3450 = some (.bvc 0x34#8) ∧
    decodeTableWord 8 0x60 = some .rts ∧
    decodeTableWord 24 0x12346C = some (.jmpInd 0x1234#16) ∧
    decodeTableWord 16 0x3470 = some (.bvs 0x34#8) ∧
    decodeTableWord 16 0x3490 = some (.bcc 0x34#8) ∧
    decodeTableWord 16 0x34B0 = some (.bcs 0x34#8) ∧
    decodeTableWord 16 0x34D0 = some (.bne 0x34#8) ∧
    decodeTableWord 16 0x34F0 = some (.beq 0x34#8) := by
  decide

theorem test_decode_logic_shifts_1 :
    decodeTableWord 16 0x3401 = some (.oraIndX 0x34#8) ∧
    decodeTableWord 16 0x3405 = some (.oraZp 0x34#8) ∧
    decodeTableWord 16 0x3406 = some (.aslZp 0x34#8) ∧
    decodeTableWord 16 0x3409 = some (.oraImm 0x34#8) ∧
    decodeTableWord 8 0x0A = some .aslAcc ∧
    decodeTableWord 24 0x12340D = some (.oraAbs 0x1234#16) ∧
    decodeTableWord 24 0x12340E = some (.aslAbs 0x1234#16) ∧
    decodeTableWord 16 0x3411 = some (.oraIndY 0x34#8) ∧
    decodeTableWord 16 0x3415 = some (.oraZpX 0x34#8) ∧
    decodeTableWord 16 0x3416 = some (.aslZpX 0x34#8) ∧
    decodeTableWord 24 0x123419 = some (.oraAbsY 0x1234#16) ∧
    decodeTableWord 24 0x12341D = some (.oraAbsX 0x1234#16) ∧
    decodeTableWord 24 0x12341E = some (.aslAbsX 0x1234#16) ∧
    decodeTableWord 16 0x3421 = some (.andIndX 0x34#8) ∧
    decodeTableWord 16 0x3424 = some (.bitZp 0x34#8) ∧
    decodeTableWord 16 0x3425 = some (.andZp 0x34#8) ∧
    decodeTableWord 16 0x3426 = some (.rolZp 0x34#8) ∧
    decodeTableWord 16 0x3429 = some (.andImm 0x34#8) ∧
    decodeTableWord 8 0x2A = some .rolAcc ∧
    decodeTableWord 24 0x12342C = some (.bitAbs 0x1234#16) := by
  decide

theorem test_decode_logic_shifts_2 :
    decodeTableWord 24 0x12342D = some (.andAbs 0x1234#16) ∧
    decodeTableWord 24 0x12342E = some (.rolAbs 0x1234#16) ∧
    decodeTableWord 16 0x3431 = some (.andIndY 0x34#8) ∧
    decodeTableWord 16 0x3435 = some (.andZpX 0x34#8) ∧
    decodeTableWord 16 0x3436 = some (.rolZpX 0x34#8) ∧
    decodeTableWord 24 0x123439 = some (.andAbsY 0x1234#16) ∧
    decodeTableWord 24 0x12343D = some (.andAbsX 0x1234#16) ∧
    decodeTableWord 24 0x12343E = some (.rolAbsX 0x1234#16) ∧
    decodeTableWord 16 0x3441 = some (.eorIndX 0x34#8) ∧
    decodeTableWord 16 0x3445 = some (.eorZp 0x34#8) ∧
    decodeTableWord 16 0x3446 = some (.lsrZp 0x34#8) ∧
    decodeTableWord 16 0x3449 = some (.eorImm 0x34#8) ∧
    decodeTableWord 8 0x4A = some .lsrAcc ∧
    decodeTableWord 24 0x12344D = some (.eorAbs 0x1234#16) ∧
    decodeTableWord 24 0x12344E = some (.lsrAbs 0x1234#16) ∧
    decodeTableWord 16 0x3451 = some (.eorIndY 0x34#8) ∧
    decodeTableWord 16 0x3455 = some (.eorZpX 0x34#8) ∧
    decodeTableWord 16 0x3456 = some (.lsrZpX 0x34#8) ∧
    decodeTableWord 24 0x123459 = some (.eorAbsY 0x1234#16) ∧
    decodeTableWord 24 0x12345D = some (.eorAbsX 0x1234#16) := by
  decide

theorem test_decode_logic_shifts_3 :
    decodeTableWord 24 0x12345E = some (.lsrAbsX 0x1234#16) ∧
    decodeTableWord 16 0x3466 = some (.rorZp 0x34#8) ∧
    decodeTableWord 8 0x6A = some .rorAcc ∧
    decodeTableWord 24 0x12346E = some (.rorAbs 0x1234#16) ∧
    decodeTableWord 16 0x3476 = some (.rorZpX 0x34#8) ∧
    decodeTableWord 24 0x12347E = some (.rorAbsX 0x1234#16) := by
  decide

theorem test_decode_stack_1 :
    decodeTableWord 8 0x08 = some .php ∧
    decodeTableWord 8 0x28 = some .plp ∧
    decodeTableWord 8 0x48 = some .pha ∧
    decodeTableWord 8 0x68 = some .pla := by
  decide

theorem test_decode_flags_1 :
    decodeTableWord 8 0x18 = some .clc ∧
    decodeTableWord 8 0x38 = some .sec ∧
    decodeTableWord 8 0x58 = some .cli ∧
    decodeTableWord 8 0x78 = some .sei ∧
    decodeTableWord 8 0xB8 = some .clv ∧
    decodeTableWord 8 0xD8 = some .cld ∧
    decodeTableWord 8 0xEA = some .nop ∧
    decodeTableWord 8 0xF8 = some .sed := by
  decide

theorem test_decode_arithmetic_1 :
    decodeTableWord 16 0x3461 = some (.adcIndX 0x34#8) ∧
    decodeTableWord 16 0x3465 = some (.adcZp 0x34#8) ∧
    decodeTableWord 16 0x3469 = some (.adcImm 0x34#8) ∧
    decodeTableWord 24 0x12346D = some (.adcAbs 0x1234#16) ∧
    decodeTableWord 16 0x3471 = some (.adcIndY 0x34#8) ∧
    decodeTableWord 16 0x3475 = some (.adcZpX 0x34#8) ∧
    decodeTableWord 24 0x123479 = some (.adcAbsY 0x1234#16) ∧
    decodeTableWord 24 0x12347D = some (.adcAbsX 0x1234#16) ∧
    decodeTableWord 8 0x88 = some .dey ∧
    decodeTableWord 16 0x34C0 = some (.cpyImm 0x34#8) ∧
    decodeTableWord 16 0x34C1 = some (.cmpIndX 0x34#8) ∧
    decodeTableWord 16 0x34C4 = some (.cpyZp 0x34#8) ∧
    decodeTableWord 16 0x34C5 = some (.cmpZp 0x34#8) ∧
    decodeTableWord 16 0x34C6 = some (.decZp 0x34#8) ∧
    decodeTableWord 8 0xC8 = some .iny ∧
    decodeTableWord 16 0x34C9 = some (.cmpImm 0x34#8) ∧
    decodeTableWord 8 0xCA = some .dex ∧
    decodeTableWord 24 0x1234CC = some (.cpyAbs 0x1234#16) ∧
    decodeTableWord 24 0x1234CD = some (.cmpAbs 0x1234#16) ∧
    decodeTableWord 24 0x1234CE = some (.decAbs 0x1234#16) := by
  decide

theorem test_decode_arithmetic_2 :
    decodeTableWord 16 0x34D1 = some (.cmpIndY 0x34#8) ∧
    decodeTableWord 16 0x34D5 = some (.cmpZpX 0x34#8) ∧
    decodeTableWord 16 0x34D6 = some (.decZpX 0x34#8) ∧
    decodeTableWord 24 0x1234D9 = some (.cmpAbsY 0x1234#16) ∧
    decodeTableWord 24 0x1234DD = some (.cmpAbsX 0x1234#16) ∧
    decodeTableWord 24 0x1234DE = some (.decAbsX 0x1234#16) ∧
    decodeTableWord 16 0x34E0 = some (.cpxImm 0x34#8) ∧
    decodeTableWord 16 0x34E1 = some (.sbcIndX 0x34#8) ∧
    decodeTableWord 16 0x34E4 = some (.cpxZp 0x34#8) ∧
    decodeTableWord 16 0x34E5 = some (.sbcZp 0x34#8) ∧
    decodeTableWord 16 0x34E6 = some (.incZp 0x34#8) ∧
    decodeTableWord 8 0xE8 = some .inx ∧
    decodeTableWord 16 0x34E9 = some (.sbcImm 0x34#8) ∧
    decodeTableWord 24 0x1234EC = some (.cpxAbs 0x1234#16) ∧
    decodeTableWord 24 0x1234ED = some (.sbcAbs 0x1234#16) ∧
    decodeTableWord 24 0x1234EE = some (.incAbs 0x1234#16) ∧
    decodeTableWord 16 0x34F1 = some (.sbcIndY 0x34#8) ∧
    decodeTableWord 16 0x34F5 = some (.sbcZpX 0x34#8) ∧
    decodeTableWord 16 0x34F6 = some (.incZpX 0x34#8) ∧
    decodeTableWord 24 0x1234F9 = some (.sbcAbsY 0x1234#16) := by
  decide

theorem test_decode_arithmetic_3 :
    decodeTableWord 24 0x1234FD = some (.sbcAbsX 0x1234#16) ∧
    decodeTableWord 24 0x1234FE = some (.incAbsX 0x1234#16) := by
  decide

theorem test_decode_loads_stores_transfers_1 :
    decodeTableWord 16 0x3481 = some (.staIndX 0x34#8) ∧
    decodeTableWord 16 0x3484 = some (.styZp 0x34#8) ∧
    decodeTableWord 16 0x3485 = some (.staZp 0x34#8) ∧
    decodeTableWord 16 0x3486 = some (.stxZp 0x34#8) ∧
    decodeTableWord 8 0x8A = some .txa ∧
    decodeTableWord 24 0x12348C = some (.styAbs 0x1234#16) ∧
    decodeTableWord 24 0x12348D = some (.staAbs 0x1234#16) ∧
    decodeTableWord 24 0x12348E = some (.stxAbs 0x1234#16) ∧
    decodeTableWord 16 0x3491 = some (.staIndY 0x34#8) ∧
    decodeTableWord 16 0x3494 = some (.styZpX 0x34#8) ∧
    decodeTableWord 16 0x3495 = some (.staZpX 0x34#8) ∧
    decodeTableWord 16 0x3496 = some (.stxZpY 0x34#8) ∧
    decodeTableWord 8 0x98 = some .tya ∧
    decodeTableWord 24 0x123499 = some (.staAbsY 0x1234#16) ∧
    decodeTableWord 8 0x9A = some .txs ∧
    decodeTableWord 24 0x12349D = some (.staAbsX 0x1234#16) ∧
    decodeTableWord 16 0x34A0 = some (.ldyImm 0x34#8) ∧
    decodeTableWord 16 0x34A1 = some (.ldaIndX 0x34#8) ∧
    decodeTableWord 16 0x34A2 = some (.ldxImm 0x34#8) ∧
    decodeTableWord 16 0x34A4 = some (.ldyZp 0x34#8) := by
  decide

theorem test_decode_loads_stores_transfers_2 :
    decodeTableWord 16 0x34A5 = some (.ldaZp 0x34#8) ∧
    decodeTableWord 16 0x34A6 = some (.ldxZp 0x34#8) ∧
    decodeTableWord 8 0xA8 = some .tay ∧
    decodeTableWord 16 0x34A9 = some (.ldaImm 0x34#8) ∧
    decodeTableWord 8 0xAA = some .tax ∧
    decodeTableWord 24 0x1234AC = some (.ldyAbs 0x1234#16) ∧
    decodeTableWord 24 0x1234AD = some (.ldaAbs 0x1234#16) ∧
    decodeTableWord 24 0x1234AE = some (.ldxAbs 0x1234#16) ∧
    decodeTableWord 16 0x34B1 = some (.ldaIndY 0x34#8) ∧
    decodeTableWord 16 0x34B4 = some (.ldyZpX 0x34#8) ∧
    decodeTableWord 16 0x34B5 = some (.ldaZpX 0x34#8) ∧
    decodeTableWord 16 0x34B6 = some (.ldxZpY 0x34#8) ∧
    decodeTableWord 24 0x1234B9 = some (.ldaAbsY 0x1234#16) ∧
    decodeTableWord 8 0xBA = some .tsx ∧
    decodeTableWord 24 0x1234BC = some (.ldyAbsX 0x1234#16) ∧
    decodeTableWord 24 0x1234BD = some (.ldaAbsX 0x1234#16) ∧
    decodeTableWord 24 0x1234BE = some (.ldxAbsY 0x1234#16) := by
  decide

theorem test_decode_illegal :
    illegalOpcodes.all (fun op => decide (decodeTableWord 8 op.toNat = some (.illegal op))) = true := by
  decide

theorem test_decode_short : decode [0xAD#8, 0x00#8] = .error (.missingOperand 0xAD#8) := rfl

/-! One step from the state of 95_test_vectors.md: the instruction at 0x8000 in the reference cartridge. -/

/-- The start state: registers and flags given, `PC` at 0x8000. -/
def start (a x y sp p : Byte) (ram : Memory) : State :=
  { State.reset with a := a, x := x, y := y, sp := sp, pc := 0x8000#16, p := Status.ofByte p, ram := ram }

/-- One CPU step with `bytes` at 0x8000 and `vectors` at 0xFFFA, and what `f` sees of the state after it. -/
def after {α : Type} (s : State) (bytes vectors : List Byte) (f : State → α) : Option α :=
  let prg := storeBytes (storeBytes [] 0x8000 0 bytes) 0x8000 0x7FFA vectors
  match ({ s with cart := .reference { prg := prg, chr := [], mirror := .vertical } } : State).cpuStep with
  | .next t => some (f t)
  | .fault _ => none
  | .refused _ => none

/-- A, X, Y, SP, P, PC, cycle. -/
structure Regs where
  a : Byte
  x : Byte
  y : Byte
  sp : Byte
  p : Byte
  pc : Addr
  cycle : Nat
  deriving DecidableEq, Repr

def regs (s : State) : Regs := ⟨s.a, s.x, s.y, s.sp, s.p.toByte, s.pc, s.cycle⟩

/-- Some bytes of work RAM. -/
def cells (ks : List Nat) (s : State) : List Byte := ks.map (Table.read s.ram 0)

/-- R400, example. -/
theorem test_lda_imm : after (start 0x00#8 0x00#8 0x00#8 0xFD#8 0x34#8 []) [0xA9#8, 0x80#8] [] regs = some ⟨0x80#8, 0x00#8, 0x00#8, 0xFD#8, 0xB4#8, 0x8002#16, 2⟩ := by decide

/-- R401, example. -/
theorem test_ldx_imm : after (start 0x00#8 0x05#8 0x00#8 0xFD#8 0x34#8 []) [0xA2#8, 0x00#8] [] regs = some ⟨0x00#8, 0x00#8, 0x00#8, 0xFD#8, 0x36#8, 0x8002#16, 2⟩ := by decide

/-- R402, example. -/
theorem test_ldy_imm : after (start 0x00#8 0x00#8 0x00#8 0xFD#8 0xB4#8 []) [0xA0#8, 0x7F#8] [] regs = some ⟨0x00#8, 0x00#8, 0x7F#8, 0xFD#8, 0x34#8, 0x8002#16, 2⟩ := by decide

/-- 95 E6: effective address 0x0210, 5 cycles. -/
theorem test_lda_indy_no_cross : after (start 0x00#8 0x00#8 0x10#8 0xFD#8 0x34#8 [(0x11, 0x02#8), (0x210, 0x5A#8)]) [0xB1#8, 0x10#8] [] regs = some ⟨0x5A#8, 0x00#8, 0x10#8, 0xFD#8, 0x34#8, 0x8002#16, 5⟩ := by decide

/-- 95 E6: effective address 0x0308, 6 cycles. -/
theorem test_lda_indy_cross : after (start 0x00#8 0x00#8 0x10#8 0xFD#8 0x34#8 [(0x10, 0xF8#8), (0x11, 0x02#8), (0x308, 0x81#8)]) [0xB1#8, 0x10#8] [] regs = some ⟨0x81#8, 0x00#8, 0x10#8, 0xFD#8, 0xB4#8, 0x8002#16, 6⟩ := by decide

/-- R403, example. -/
theorem test_sta_abs : after (start 0x5A#8 0x00#8 0x00#8 0xFD#8 0x34#8 []) [0x8D#8, 0x00#8, 0x02#8] [] (fun s => (s.a, s.p.toByte, cells [0x200, 0x201] s, s.cycle)) = some (0x5A#8, 0x34#8, [0x5A#8, 0x00#8], 4) := by decide

/-- R404: STX $F0,Y with Y = 0x20 stores to 0x0010. -/
theorem test_stx_zpy_wraps : after (start 0x00#8 0x07#8 0x20#8 0xFD#8 0x34#8 []) [0x96#8, 0xF0#8] [] (fun s => (cells [0x10, 0x110] s, s.cycle)) = some ([0x07#8, 0x00#8], 4) := by decide

/-- R404, example. -/
theorem test_stx_zp : after (start 0x00#8 0x07#8 0x00#8 0xFD#8 0x34#8 []) [0x86#8, 0x10#8] [] (fun s => (cells [0x10] s, s.cycle)) = some ([0x07#8], 3) := by decide

/-- R405, example: performs PpuRegWrite(5, 0x00). -/
theorem test_sty_2005 : after (start 0x00#8 0x00#8 0x00#8 0xFD#8 0x34#8 []) [0x8C#8, 0x05#8, 0x20#8] [] (fun s => (s.ppu.w, s.ppu.x, s.cycle)) = some (true, 0#3, 4) := by decide

/-- R406, example. -/
theorem test_tax : after (start 0x00#8 0x09#8 0x00#8 0xFD#8 0x34#8 []) [0xAA#8] [] regs = some ⟨0x00#8, 0x00#8, 0x00#8, 0xFD#8, 0x36#8, 0x8001#16, 2⟩ := by decide

/-- R407, example. -/
theorem test_tay : after (start 0xFF#8 0x00#8 0x00#8 0xFD#8 0x34#8 []) [0xA8#8] [] regs = some ⟨0xFF#8, 0x00#8, 0xFF#8, 0xFD#8, 0xB4#8, 0x8001#16, 2⟩ := by decide

/-- R408, example. -/
theorem test_txa : after (start 0x00#8 0x10#8 0x00#8 0xFD#8 0x34#8 []) [0x8A#8] [] regs = some ⟨0x10#8, 0x10#8, 0x00#8, 0xFD#8, 0x34#8, 0x8001#16, 2⟩ := by decide

/-- R409, example. -/
theorem test_tya : after (start 0x00#8 0x00#8 0x80#8 0xFD#8 0x34#8 []) [0x98#8] [] regs = some ⟨0x80#8, 0x00#8, 0x80#8, 0xFD#8, 0xB4#8, 0x8001#16, 2⟩ := by decide

/-- R410, example. -/
theorem test_tsx : after (start 0x00#8 0x00#8 0x00#8 0xFD#8 0x34#8 []) [0xBA#8] [] regs = some ⟨0x00#8, 0xFD#8, 0x00#8, 0xFD#8, 0xB4#8, 0x8001#16, 2⟩ := by decide

/-- R411, example. -/
theorem test_txs : after (start 0x00#8 0xFF#8 0x00#8 0xFD#8 0x34#8 []) [0x9A#8] [] regs = some ⟨0x00#8, 0xFF#8, 0x00#8, 0xFF#8, 0x34#8, 0x8001#16, 2⟩ := by decide

/-- R434, example. -/
theorem test_pha : after (start 0x42#8 0x00#8 0x00#8 0xFD#8 0x34#8 []) [0x48#8] [] (fun s => (cells [0x1FD] s, s.sp, s.cycle)) = some ([0x42#8], 0xFC#8, 3) := by decide

/-- R435, example. -/
theorem test_php : after (start 0x00#8 0x00#8 0x00#8 0xFD#8 0x34#8 []) [0x08#8] [] (fun s => (cells [0x1FD] s, s.sp, s.cycle)) = some ([0x34#8], 0xFC#8, 3) := by decide

/-- R436, example. -/
theorem test_pla : after (start 0x00#8 0x00#8 0x00#8 0xFC#8 0x34#8 [(0x1FD, 0x80#8)]) [0x68#8] [] regs = some ⟨0x80#8, 0x00#8, 0x00#8, 0xFD#8, 0xB4#8, 0x8001#16, 4⟩ := by decide

/-- R437, example. -/
theorem test_plp : after (start 0x00#8 0x00#8 0x00#8 0xFC#8 0x34#8 [(0x1FD, 0xC3#8)]) [0x28#8] [] regs = some ⟨0x00#8, 0x00#8, 0x00#8, 0xFD#8, 0xF3#8, 0x8001#16, 4⟩ := by decide

/-- 95 E1. -/
theorem test_adc_no_overflow : after (start 0x50#8 0x00#8 0x00#8 0xFD#8 0x30#8 []) [0x69#8, 0x10#8] [] regs = some ⟨0x60#8, 0x00#8, 0x00#8, 0xFD#8, 0x30#8, 0x8002#16, 2⟩ := by decide

/-- 95 E2. -/
theorem test_adc_overflow : after (start 0x50#8 0x00#8 0x00#8 0xFD#8 0x30#8 []) [0x69#8, 0x50#8] [] regs = some ⟨0xA0#8, 0x00#8, 0x00#8, 0xFD#8, 0xF0#8, 0x8002#16, 2⟩ := by decide

/-- R453: A = 0x50, M = 0xF0, C = 1. -/
theorem test_sbc_borrow : after (start 0x50#8 0x00#8 0x00#8 0xFD#8 0x31#8 []) [0xE9#8, 0xF0#8] [] regs = some ⟨0x60#8, 0x00#8, 0x00#8, 0xFD#8, 0x30#8, 0x8002#16, 2⟩ := by decide

/-- R453: A = 0x50, M = 0xB0, C = 1. -/
theorem test_sbc_overflow : after (start 0x50#8 0x00#8 0x00#8 0xFD#8 0x31#8 []) [0xE9#8, 0xB0#8] [] regs = some ⟨0xA0#8, 0x00#8, 0x00#8, 0xFD#8, 0xF0#8, 0x8002#16, 2⟩ := by decide

/-- R455, example. -/
theorem test_cmp_imm : after (start 0x20#8 0x00#8 0x00#8 0xFD#8 0x30#8 []) [0xC9#8, 0x10#8] [] regs = some ⟨0x20#8, 0x00#8, 0x00#8, 0xFD#8, 0x31#8, 0x8002#16, 2⟩ := by decide

/-- R455: A = 0x00, M = 0x01. -/
theorem test_cmp_below : after (start 0x00#8 0x00#8 0x00#8 0xFD#8 0x33#8 []) [0xC9#8, 0x01#8] [] regs = some ⟨0x00#8, 0x00#8, 0x00#8, 0xFD#8, 0xB0#8, 0x8002#16, 2⟩ := by decide

/-- R456, example. -/
theorem test_cpx_imm : after (start 0x00#8 0x08#8 0x00#8 0xFD#8 0x30#8 []) [0xE0#8, 0x08#8] [] regs = some ⟨0x00#8, 0x08#8, 0x00#8, 0xFD#8, 0x33#8, 0x8002#16, 2⟩ := by decide

/-- R457, example. -/
theorem test_cpy_imm : after (start 0x00#8 0x00#8 0x00#8 0xFD#8 0x30#8 []) [0xC0#8, 0x01#8] [] regs = some ⟨0x00#8, 0x00#8, 0x00#8, 0xFD#8, 0xB0#8, 0x8002#16, 2⟩ := by decide

/-- R458, example. -/
theorem test_inc_zp : after (start 0x00#8 0x00#8 0x00#8 0xFD#8 0x34#8 [(0x10, 0x7F#8)]) [0xE6#8, 0x10#8] [] (fun s => (cells [0x10] s, s.p.toByte, s.cycle)) = some ([0x80#8], 0xB4#8, 5) := by decide

/-- R461, example. -/
theorem test_dec_zp : after (start 0x00#8 0x00#8 0x00#8 0xFD#8 0x34#8 [(0x10, 0x01#8)]) [0xC6#8, 0x10#8] [] (fun s => (cells [0x10] s, s.p.toByte, s.cycle)) = some ([0x00#8], 0x36#8, 5) := by decide

/-- R459, example. -/
theorem test_inx : after (start 0x00#8 0x0F#8 0x00#8 0xFD#8 0x34#8 []) [0xE8#8] [] regs = some ⟨0x00#8, 0x10#8, 0x00#8, 0xFD#8, 0x34#8, 0x8001#16, 2⟩ := by decide

/-- R460, example. -/
theorem test_iny : after (start 0x00#8 0x00#8 0x7F#8 0xFD#8 0x34#8 []) [0xC8#8] [] regs = some ⟨0x00#8, 0x00#8, 0x80#8, 0xFD#8, 0xB4#8, 0x8001#16, 2⟩ := by decide

/-- R462, example. -/
theorem test_dex : after (start 0x00#8 0x01#8 0x00#8 0xFD#8 0x34#8 []) [0xCA#8] [] regs = some ⟨0x00#8, 0x00#8, 0x00#8, 0xFD#8, 0x36#8, 0x8001#16, 2⟩ := by decide

/-- R463, example. -/
theorem test_dey : after (start 0x00#8 0x00#8 0x00#8 0xFD#8 0x36#8 []) [0x88#8] [] regs = some ⟨0x00#8, 0x00#8, 0xFF#8, 0xFD#8, 0xB4#8, 0x8001#16, 2⟩ := by decide

/-- R480, example. -/
theorem test_and_imm : after (start 0xF5#8 0x00#8 0x00#8 0xFD#8 0x34#8 []) [0x29#8, 0x0F#8] [] regs = some ⟨0x05#8, 0x00#8, 0x00#8, 0xFD#8, 0x34#8, 0x8002#16, 2⟩ := by decide

/-- R481, example. -/
theorem test_ora_imm : after (start 0x01#8 0x00#8 0x00#8 0xFD#8 0x34#8 []) [0x09#8, 0x80#8] [] regs = some ⟨0x81#8, 0x00#8, 0x00#8, 0xFD#8, 0xB4#8, 0x8002#16, 2⟩ := by decide

/-- R482, example. -/
theorem test_eor_imm : after (start 0x0F#8 0x00#8 0x00#8 0xFD#8 0x34#8 []) [0x49#8, 0xFF#8] [] regs = some ⟨0xF0#8, 0x00#8, 0x00#8, 0xFD#8, 0xB4#8, 0x8002#16, 2⟩ := by decide

/-- R483, example: BIT $2002 with `vblank` and `w` set. -/
theorem test_bit_2002 :
    after { start 0x00#8 0#8 0#8 0xFD#8 0x34#8 [] with ppu := { State.reset.ppu with vblank := true, w := true } }
      [0x2C#8, 0x02#8, 0x20#8] [] (fun s => (s.p.toByte, s.ppu.vblank, s.ppu.w, s.cycle)) = some (0xB6#8, false, false, 4) := by
  decide

/-- R484, example. -/
theorem test_asl_acc : after (start 0x41#8 0x00#8 0x00#8 0xFD#8 0x34#8 []) [0x0A#8] [] regs = some ⟨0x82#8, 0x00#8, 0x00#8, 0xFD#8, 0xB4#8, 0x8001#16, 2⟩ := by decide

/-- R485, example. -/
theorem test_lsr_acc : after (start 0x03#8 0x00#8 0x00#8 0xFD#8 0x34#8 []) [0x4A#8] [] regs = some ⟨0x01#8, 0x00#8, 0x00#8, 0xFD#8, 0x35#8, 0x8001#16, 2⟩ := by decide

/-- R486, example. -/
theorem test_rol_acc : after (start 0x40#8 0x00#8 0x00#8 0xFD#8 0x35#8 []) [0x2A#8] [] regs = some ⟨0x81#8, 0x00#8, 0x00#8, 0xFD#8, 0xB4#8, 0x8001#16, 2⟩ := by decide

/-- R487, example. -/
theorem test_ror_acc : after (start 0x02#8 0x00#8 0x00#8 0xFD#8 0x35#8 []) [0x6A#8] [] regs = some ⟨0x81#8, 0x00#8, 0x00#8, 0xFD#8, 0xB4#8, 0x8001#16, 2⟩ := by decide

/-- R484: old = 0x80 gives 0x00, C = 1, Z = 1. -/
theorem test_asl_zp : after (start 0x00#8 0x00#8 0x00#8 0xFD#8 0x34#8 [(0x10, 0x80#8)]) [0x06#8, 0x10#8] [] (fun s => (cells [0x10] s, s.p.toByte, s.cycle)) = some ([0x00#8], 0x37#8, 5) := by decide

/-- 95 E5. -/
theorem test_jmp_abs : after (start 0x00#8 0x00#8 0x00#8 0xFD#8 0x34#8 []) [0x4C#8, 0x34#8, 0x12#8] [] regs = some ⟨0x00#8, 0x00#8, 0x00#8, 0xFD#8, 0x34#8, 0x1234#16, 3⟩ := by decide

/-- R510: JMP ($02FF) takes its high byte from 0x0200. -/
theorem test_jmp_ind_wraps_in_page : after (start 0x00#8 0x00#8 0x00#8 0xFD#8 0x34#8 [(0x200, 0x12#8), (0x2FF, 0x34#8), (0x300, 0x56#8)]) [0x6C#8, 0xFF#8, 0x02#8] [] (fun s => (s.pc, s.cycle)) = some (0x1234#16, 5) := by decide

/-- R511, example. -/
theorem test_jsr : after (start 0x00#8 0x00#8 0x00#8 0xFD#8 0x34#8 []) [0x20#8, 0x34#8, 0x12#8] [] (fun s => (cells [0x1FD, 0x1FC] s, s.sp, s.pc, s.cycle)) = some ([0x80#8, 0x02#8], 0xFB#8, 0x1234#16, 6) := by decide

/-- R512, example. -/
theorem test_rts : after (start 0x00#8 0x00#8 0x00#8 0xFB#8 0x34#8 [(0x1FC, 0x02#8), (0x1FD, 0x80#8)]) [0x60#8] [] regs = some ⟨0x00#8, 0x00#8, 0x00#8, 0xFD#8, 0x34#8, 0x8003#16, 6⟩ := by decide

/-- R513, example. -/
theorem test_rti : after (start 0x00#8 0x00#8 0x00#8 0xFA#8 0x34#8 [(0x1FB, 0x24#8), (0x1FC, 0x05#8), (0x1FD, 0x80#8)]) [0x40#8] [] regs = some ⟨0x00#8, 0x00#8, 0x00#8, 0xFD#8, 0x34#8, 0x8005#16, 6⟩ := by decide

/-- R514, example. -/
theorem test_brk : after (start 0x00#8 0x00#8 0x00#8 0xFD#8 0x30#8 []) [0x00#8] [0#8, 0#8, 0#8, 0#8, 0x00#8, 0x90#8] (fun s => (cells [0x1FD, 0x1FC, 0x1FB] s, s.sp, s.p.toByte, s.pc, s.cycle)) = some ([0x80#8, 0x02#8, 0x30#8], 0xFA#8, 0x34#8, 0x9000#16, 7) := by decide

/-- R516, example. -/
theorem test_bcc : after (start 0x00#8 0x00#8 0x00#8 0xFD#8 0x30#8 []) [0x90#8, 0x05#8] [] regs = some ⟨0x00#8, 0x00#8, 0x00#8, 0xFD#8, 0x30#8, 0x8007#16, 3⟩ := by decide

/-- R517, example. -/
theorem test_bcs : after (start 0x00#8 0x00#8 0x00#8 0xFD#8 0x31#8 []) [0xB0#8, 0xFE#8] [] regs = some ⟨0x00#8, 0x00#8, 0x00#8, 0xFD#8, 0x31#8, 0x8000#16, 3⟩ := by decide

/-- R518 at 0x8000 by R309 and R333. -/
theorem test_beq : after (start 0x00#8 0x00#8 0x00#8 0xFD#8 0x32#8 []) [0xF0#8, 0x7F#8] [] regs = some ⟨0x00#8, 0x00#8, 0x00#8, 0xFD#8, 0x32#8, 0x8081#16, 3⟩ := by decide

/-- R519 at 0x8000: target 0x7FFF on another page. -/
theorem test_bne : after (start 0x00#8 0x00#8 0x00#8 0xFD#8 0x30#8 []) [0xD0#8, 0xFD#8] [] regs = some ⟨0x00#8, 0x00#8, 0x00#8, 0xFD#8, 0x30#8, 0x7FFF#16, 4⟩ := by decide

/-- R520, example. -/
theorem test_bmi : after (start 0x00#8 0x00#8 0x00#8 0xFD#8 0x30#8 []) [0x30#8, 0x02#8] [] regs = some ⟨0x00#8, 0x00#8, 0x00#8, 0xFD#8, 0x30#8, 0x8002#16, 2⟩ := by decide

/-- R521 at 0x8000: target 0x7FFD on another page. -/
theorem test_bpl : after (start 0x00#8 0x00#8 0x00#8 0xFD#8 0x30#8 []) [0x10#8, 0xFB#8] [] regs = some ⟨0x00#8, 0x00#8, 0x00#8, 0xFD#8, 0x30#8, 0x7FFD#16, 4⟩ := by decide

/-- R522, example. -/
theorem test_bvc : after (start 0x00#8 0x00#8 0x00#8 0xFD#8 0x30#8 []) [0x50#8, 0x80#8] [] regs = some ⟨0x00#8, 0x00#8, 0x00#8, 0xFD#8, 0x30#8, 0x7F82#16, 4⟩ := by decide

/-- R523, example. -/
theorem test_bvs : after (start 0x00#8 0x00#8 0x00#8 0xFD#8 0x70#8 []) [0x70#8, 0x10#8] [] regs = some ⟨0x00#8, 0x00#8, 0x00#8, 0xFD#8, 0x70#8, 0x8012#16, 3⟩ := by decide

/-- R550, example. -/
theorem test_clc : after (start 0x00#8 0x00#8 0x00#8 0xFD#8 0x35#8 []) [0x18#8] [] regs = some ⟨0x00#8, 0x00#8, 0x00#8, 0xFD#8, 0x34#8, 0x8001#16, 2⟩ := by decide

/-- R551, example. -/
theorem test_sec : after (start 0x00#8 0x00#8 0x00#8 0xFD#8 0x34#8 []) [0x38#8] [] regs = some ⟨0x00#8, 0x00#8, 0x00#8, 0xFD#8, 0x35#8, 0x8001#16, 2⟩ := by decide

/-- R552, example. -/
theorem test_cli : after (start 0x00#8 0x00#8 0x00#8 0xFD#8 0x34#8 []) [0x58#8] [] regs = some ⟨0x00#8, 0x00#8, 0x00#8, 0xFD#8, 0x30#8, 0x8001#16, 2⟩ := by decide

/-- R553, example. -/
theorem test_sei : after (start 0x00#8 0x00#8 0x00#8 0xFD#8 0x30#8 []) [0x78#8] [] regs = some ⟨0x00#8, 0x00#8, 0x00#8, 0xFD#8, 0x34#8, 0x8001#16, 2⟩ := by decide

/-- R554, example. -/
theorem test_cld : after (start 0x00#8 0x00#8 0x00#8 0xFD#8 0x3C#8 []) [0xD8#8] [] regs = some ⟨0x00#8, 0x00#8, 0x00#8, 0xFD#8, 0x34#8, 0x8001#16, 2⟩ := by decide

/-- R555, example. -/
theorem test_sed : after (start 0x00#8 0x00#8 0x00#8 0xFD#8 0x34#8 []) [0xF8#8] [] regs = some ⟨0x00#8, 0x00#8, 0x00#8, 0xFD#8, 0x3C#8, 0x8001#16, 2⟩ := by decide

/-- R556, example. -/
theorem test_clv : after (start 0x00#8 0x00#8 0x00#8 0xFD#8 0x74#8 []) [0xB8#8] [] regs = some ⟨0x00#8, 0x00#8, 0x00#8, 0xFD#8, 0x34#8, 0x8001#16, 2⟩ := by decide

/-- R557, example. -/
theorem test_nop : after (start 0x00#8 0x00#8 0x00#8 0xFD#8 0x34#8 []) [0xEA#8] [] regs = some ⟨0x00#8, 0x00#8, 0x00#8, 0xFD#8, 0x34#8, 0x8001#16, 2⟩ := by decide

/-- R558, example. -/
theorem test_illegal_resets : after (start 0x00#8 0x00#8 0x00#8 0xFD#8 0x34#8 []) [0x02#8] [0#8, 0#8, 0x00#8, 0xC0#8, 0#8, 0#8] (fun s => (cells [0x1FD] s, s.sp, s.p.toByte, s.pc, s.cycle)) = some ([0x24#8], 0xFC#8, 0x34#8, 0xC000#16, 7) := by decide

/-- R558 under policy fault. -/
theorem test_illegal_faults :
    exec (.illegal 0x02#8) { State.reset with params := { Params.default with illegalPolicy := .fault } }
      = .fault (.illegalOpcode 0x02#8) := rfl

/-! Interrupts, the PPU's registers and its pipeline: the rules' worked examples. -/

/-- A state with vectors NMI 0x9000, RESET 0xC000, IRQ 0xA000. -/
def vectored (s : State) : State :=
  { s with cart := .reference { prg := storeBytes [] 0x8000 0x7FFA [0x00#8, 0x90#8, 0x00#8, 0xC0#8, 0x00#8, 0xA0#8]
                                chr := [], mirror := .vertical } }

/-- R801, example. -/
theorem test_nmi : (fun s => (cells [0x1FD, 0x1FC, 0x1FB] s, s.sp, s.pc, s.p.toByte, s.cycle))
    (vectored { start 0#8 0#8 0#8 0xFD#8 0xB1#8 [] with pc := 0x8123#16 }).doNMI
    = ([0x81#8, 0x23#8, 0xA1#8], 0xFA#8, 0x9000#16, 0xB1#8, 7) := by decide

/-- R807, example, and masked. -/
theorem test_irq : (fun s => (cells [0x1FF, 0x1FE, 0x1FD] s, s.sp, s.pc, s.cycle))
    (vectored { start 0#8 0#8 0#8 0xFF#8 0x30#8 [] with pc := 0x8010#16 }).doIRQ
    = ([0x80#8, 0x10#8, 0x20#8], 0xFC#8, 0xA000#16, 7) ∧
    (vectored (start 0#8 0#8 0#8 0xFF#8 0x34#8 [])).doIRQ = vectored (start 0#8 0#8 0#8 0xFF#8 0x34#8 []) := by decide

/-- R803, example. -/
theorem test_reset_entry : (fun s => (cells [0x1FD, 0x1FC] s, s.sp, s.pc, s.p.toByte, s.cycle))
    (vectored (start 0#8 0#8 0#8 0xFD#8 0x34#8 [])).doReset = ([0x24#8, 0x00#8], 0xFC#8, 0xC000#16, 0x34#8, 7) := by decide

/-- The reset state: P 0x34, SP 0xFD, PC from the vector, 0 with the reset cartridge (R150). -/
theorem test_power_on : regs State.reset = ⟨0#8, 0#8, 0#8, 0xFD#8, 0x34#8, 0#16, 0⟩ ∧
    (State.powerOn Params.default (vectored State.reset).cart .silent .absent .absent).pc = 0xC000#16 := by decide

/-- From reset, with the bytes of LDA #$80 put where the next instruction is fetched, step runs it (log 6). -/
theorem test_withFetchWord_runs : (match step (State.reset.withFetchWord 16 0x80A9) with
    | .next t => some (regs t) | .fault _ => none | .refused _ => none)
    = some ⟨0x80#8, 0#8, 0#8, 0xFD#8, 0xB4#8, 0x0002#16, 2⟩ := by decide

/-- R603, example. -/
theorem test_write_control : (fun s : State => (s.ppu.ctrl, s.ppu.t)) (State.reset.wr 0x2000#16 0x93#8) = (0x93#8, 0x0C00#15) := by
  decide

/-- R609, example. -/
theorem test_write_scroll : (fun s : State => (s.ppu.t, s.ppu.x, s.ppu.w)) (State.reset.wr 0x2005#16 0x7D#8) = (0x000F#15, 5#3, true) ∧
    (fun s : State => (s.ppu.t, s.ppu.w)) ((State.reset.wr 0x2005#16 0x7D#8).wr 0x2005#16 0x5E#8) = (0x616F#15, false) := by
  decide

/-- R610, example, and R611, example, after it. -/
theorem test_write_address_data :
    (fun s : State => (s.ppu.v, s.ppu.w, Table.read s.ppu.bgPal 0 0))
      (((State.reset.wr 0x2006#16 0x3F#8).wr 0x2006#16 0x00#8).wr 0x2007#16 0x0F#8) = (0x3F01#15, false, 0x0F#6) := by
  decide

/-- R612, example. -/
theorem test_read_data :
    let s : State := { State.reset with ppu := { State.reset.ppu with v := 0x2000#15, ciram := [(0, 0xAB#8), (1, 0xCD#8)] } }
    let r := s.rd 0x2007#16
    let q := r.2.rd 0x2007#16
    (r.1, q.1, q.2.ppu.readBuf, q.2.ppu.v) = (0x00#8, 0xAB#8, 0xCD#8, 0x2002#15) := by
  decide

/-- R607, example. -/
theorem test_oam_write : (fun s : State => (Table.read s.ppu.oam 0 0xFF, s.ppu.oamAddr))
    ({ State.reset with ppu := { State.reset.ppu with oamAddr := 0xFF#8 } } |>.wr 0x2004#16 0x12#8) = (0x12#8, 0x00#8) := by decide

/-- R641 to R644, examples. -/
theorem test_scroll_operations :
    incX 0x001F#15 = 0x0400#15 ∧ incX 0x041F#15 = 0x0000#15 ∧ incX 0x2C05#15 = 0x2C06#15 ∧
    incY 0x73A0#15 = 0x0800#15 ∧ incY 0x73E0#15 = 0x0000#15 ∧ incY 0x2000#15 = 0x3000#15 ∧ incY 0x73C0#15 = 0x03E0#15 ∧
    copyX 0x7BFF#15 0x0405#15 = 0x7FE5#15 ∧ copyY 0x041F#15 0x6965#15 = 0x6D7F#15 := by decide

/-- R650, example. -/
theorem test_fetchTile :
    let s : State := { State.reset with
      cart := .reference { prg := [], chr := [(0x1240, 0xF0#8), (0x1248, 0xCC#8)], mirror := .vertical }
      ppu := { State.reset.ppu with renderingEnabled := true, ctrl := 0x10#8, ciram := [(0, 0x24#8), (0x3C0, 0xE4#8)] } }
    ((List.range 8).map fun i => Table.read s.fetchTile.ppu.bgBuf 0 (8 + i)) = [3#4, 3#4, 1#4, 1#4, 2#4, 2#4, 0#4, 0#4] ∧
    s.fetchTile.ppu.v = 0x0001#15 := by decide

/-- R675, examples. -/
theorem test_spriteAddr :
    spriteAddr { State.reset.ppu with ctrl := 0x20#8 } 20 10#8 0x05#8 0x00#8 = 0x1052#14 ∧
    spriteAddr { State.reset.ppu with ctrl := 0x20#8 } 20 10#8 0x05#8 0x80#8 = 0x1045#14 := by decide

/-- R673, example: nine sprites in range. -/
theorem test_evaluate_nine :
    let oam : Memory := Table.tabulate 0 256 fun k => if k % 4 = 0 ∧ k < 36 then 16#8 else 0xFF#8
    let s : State := { State.reset with ppu := { State.reset.ppu with renderingEnabled := true, oam := oam } }
    (fun t : State => (t.ppu.secCount, t.ppu.sprite0InSec, t.ppu.spriteOverflow, t.ppu.oamAddr)) (s.evaluateSprites 20)
      = (8, true, true, 36#8) := by decide

/-- R676, example. -/
theorem test_fetchSprite :
    let s : State := { State.reset with
      cart := .reference { prg := [], chr := [(0x22, 0x81#8), (0x2A, 0x01#8)], mirror := .vertical }
      ppu := { State.reset.ppu with renderingEnabled := true, secCount := 1
                                    sec := [(0, 16#8), (1, 0x02#8), (2, 0x41#8), (3, 250#8)] } }
    (s.fetchSprite 0 18).ppu.layerFront = [(250, 0x7#4)] := by decide

/-- R684, example. -/
theorem test_renderTile :
    let s : State := { State.reset with ppu := { State.reset.ppu with
      x := 3#3, mask := 0x1E#8
      bgBuf := [(3, 5#4), (4, 6#4), (5, 7#4), (8, 9#4), (9, 9#4), (10, 9#4)]
      bgPal := [(0, 0x0F#6), (5, 0x11#6), (6, 0x12#6), (7, 0x13#6), (9, 0x21#6)] } }
    ((List.range 8).map fun i => Picture.pixel (s.renderTile 0 1).ppu.frame 0 (8 + i))
      = [0x11#9, 0x12#9, 0x13#9, 0x0F#9, 0x0F#9, 0x21#9, 0x21#9, 0x21#9] := by decide

/-- R686, example. -/
theorem test_sprite0_hit :
    let s : State := { State.reset with ppu := { State.reset.ppu with
      mask := 0x1E#8, bgBuf := [(4, 2#4)], layerSpr0 := [(100, 5#4)], sprPal := [(5, 0x2A#6)] } }
    (s.renderTile 7 12).ppu.sprite0Hit = true ∧ Picture.pixel (s.renderTile 7 12).ppu.frame 7 100 = 0x2A#9 := by decide

/-- R943: more than 2000 ms behind pauses with no frame run; one and a bit frames drops one and shows one. -/
theorem test_pacing :
    (Pacing.mk 0 0 false).onHostFrame 6100 = (⟨6100, 0, true⟩, ⟨0, false⟩) ∧
    ((Pacing.mk 0 0 false).onHostFrame 105).2 = ⟨1, true⟩ := by decide

/-! Witnesses: concrete states and operands that meet the hypotheses of each obligation. -/

/-- A state that meets the invariant at a place of the schedule. -/
def placed (line pos off cyc : Nat) : State :=
  { State.reset with a := 1#8, scanline := line, pos := pos, cycleOffset6 := off, cycle := cyc }

theorem placed_inv (line pos off cyc : Nat) (h : (placed line pos off cyc).SchedulerWf) : (placed line pos off cyc).Inv where
  ram := rfl
  ppu := by
    constructor
    case rows => intro row; rfl
    all_goals rfl
  cart := ⟨rfl, rfl⟩
  sched := h
  secCount := Nat.zero_le _
  sharedPalette k _ := rfl
  rendering := (by decide : State.reset.ppu.renderingEnabled = (State.reset.ppu.showBg || State.reset.ppu.showSpr))

theorem test_witness_inv_frame_start : (placed 0 0 0 0).Inv := placed_inv _ _ _ _ ⟨by decide, by decide, by decide⟩
theorem test_witness_inv_240 : (placed 240 0 163680 27281).Inv := placed_inv _ _ _ _ ⟨by decide, by decide, by decide⟩
theorem test_witness_inv_frame_end : (placed 261 42 178002 29781).Inv := placed_inv _ _ _ _ ⟨by decide, by decide, by decide⟩
theorem test_witness_inv_frame_end_3 : (placed 261 42 178005 29782).Inv := placed_inv _ _ _ _ ⟨by decide, by decide, by decide⟩

theorem test_witness_EncodedInstructionsDecodeBack : (Instr.staAbsX 0x1234#16).wf = true ∧ (Instr.illegal 0xFF#8).wf = true := by decide

theorem test_witness_DecodedBytesEncodeBack : ∃ i rest, decode [0xA9#8, 0x80#8, 0x00#8] = .ok (i, rest) := ⟨_, _, rfl⟩

theorem test_witness_StepRunsTheDecodedInstruction :
    let s := State.reset.withFetchWord 16 0x80A9
    (Instr.ldaImm 0x80#8).wf = true ∧ NoCallHere s ∧ 6 * s.cycle ≤ s.entry.at6 + s.cycleOffset6 ∧
      ∃ t, (taken s).fetchBytes (encode (.ldaImm 0x80#8)).length = (encode (.ldaImm 0x80#8), t) :=
  ⟨rfl, .inl rfl, by decide, _, rfl⟩

theorem test_witness_FetchReadsMemoryAndMovesOnlyPC :
    (vectored State.reset).cart = .reference ⟨storeBytes [] 0x8000 0x7FFA [0x00#8, 0x90#8, 0x00#8, 0xC0#8, 0x00#8, 0xA0#8], [], .vertical⟩ ∧
    ∀ k, k < 3 → (State.reset.pc.toNat + k) % 65536 < 0x2000 ∨ 0x8000 ≤ (State.reset.pc.toNat + k) % 65536 := by
  refine ⟨rfl, ?_⟩
  decide

theorem test_witness_StepIsOneInstructionOrOneEntry :
    NoCallHere (placed 0 0 0 0) ∧ NoCallHere { State.reset with agenda := [.step] } ∧
    (∃ e, (sched 0)[0]? = some e ∧ 6 * 0 ≤ e.at6 + 0 ∧ e.at6 + 0 < 6 * 1) ∧
    ∃ e, (sched 261)[42]? = some e ∧ e.at6 + 178002 < 6 * 29781 :=
  ⟨.inl rfl, .inr ⟨[], rfl⟩, ⟨_, rfl, by decide, by decide⟩, _, rfl, by decide⟩

theorem test_witness_SchedulesAreTheTables : ∃ e f, (sched 239)[40]? = some e ∧ (sched 239)[41]? = some f := ⟨_, _, rfl, rfl⟩

theorem test_witness_LoadsWriteRegisterAndZN :
    ldaRow (.imm 0#8) = some (.ldaImm 0#8, 0xA9#8) ∧ ldxRow (.mem (.zpy 0xFF#8)) = some (.ldxZpY 0xFF#8, 0xB6#8) ∧
    ldyRow (.mem (.absx 0xFFFF#16)) = some (.ldyAbsX 0xFFFF#16, 0xBC#8) := ⟨rfl, rfl, rfl⟩

theorem test_witness_StoresWriteOnlyMemory :
    staRow (.mem (.abs 0x1FFF#16)) = some (.staAbs 0x1FFF#16, 0x8D#8) ∧
    (State.reset.resolve (.abs 0x1FFF#16)).ea.toNat < 0x2000 ∧
    stxRow (.mem (.zpy 0xFF#8)) = some (.stxZpY 0xFF#8, 0x96#8) ∧
    styRow (.mem (.abs 0x4014#16)) = some (.styAbs 0x4014#16, 0x8C#8) := ⟨rfl, by decide, rfl, rfl⟩

theorem test_witness_AddAndSubtractWithCarry :
    adcRow (.mem (.indx 0#8)) = some (.adcIndX 0#8, 0x61#8) ∧ sbcRow (.imm 0xFF#8) = some (.sbcImm 0xFF#8, 0xE9#8) := ⟨rfl, rfl⟩

theorem test_witness_ComparesSetCarryZeroNegative :
    cmpRow (.mem (.absy 0#16)) = some (.cmpAbsY 0#16, 0xD9#8) ∧ cpxRow (.imm 0#8) = some (.cpxImm 0#8, 0xE0#8) ∧
    cpyRow (.mem (.abs 0xFFFF#16)) = some (.cpyAbs 0xFFFF#16, 0xCC#8) := ⟨rfl, rfl, rfl⟩

theorem test_witness_IncrementAndDecrementMemory :
    incRow (.mem (.absx 0#16)) = some (.incAbsX 0#16, 0xFE#8) ∧ decRow (.mem (.zp 0xFF#8)) = some (.decZp 0xFF#8, 0xC6#8) := ⟨rfl, rfl⟩

theorem test_witness_LogicAndBitTest :
    andRow (.imm 0#8) = some (.andImm 0#8, 0x29#8) ∧ oraRow (.mem (.zpx 0#8)) = some (.oraZpX 0#8, 0x15#8) ∧
    eorRow (.mem (.indy 0xFF#8)) = some (.eorIndY 0xFF#8, 0x51#8) ∧ bitRow (.mem (.zp 0#8)) = some (.bitZp 0#8, 0x24#8) :=
  ⟨rfl, rfl, rfl, rfl⟩

theorem test_witness_ShiftsAndRotates :
    aslRow .acc = some (.aslAcc, 0x0A#8) ∧ lsrRow (.mem (.zp 0#8)) = some (.lsrZp 0#8, 0x46#8) ∧
    rolRow .acc = some (.rolAcc, 0x2A#8) ∧ rorRow (.mem (.absx 0#16)) = some (.rorAbsX 0#16, 0x7E#8) := ⟨rfl, rfl, rfl, rfl⟩

theorem test_witness_JumpsSetPC :
    jmpRow (.mem (.abs 0#16)) = some (.jmpAbs 0#16, 0x4C#8) ∧ jmpRow (.mem (.ind 0x02FF#16)) = some (.jmpInd 0x02FF#16, 0x6C#8) :=
  ⟨rfl, rfl⟩

theorem test_witness_DecimalFlagIsInertAndVIsSignedOverflow :
    Instr.adcImm 0#8 ≠ .php ∧ Instr.adcImm 0#8 ≠ .brk ∧ ∀ op, Instr.adcImm 0#8 ≠ .illegal op := ⟨by decide, by decide, nofun⟩

theorem test_witness_ReturnsUndoEntriesAndCalls : (start 0#8 0#8 0#8 0xFD#8 0x30#8 []).p.i = false := by decide

theorem test_witness_IllegalOpcodesResetOrFault : State.reset.params.illegalPolicy = .reset ∧
    (State.powerOn { Params.default with illegalPolicy := .fault } Cart.blank .silent .absent .absent).params.illegalPolicy = .fault := by
  decide

theorem test_witness_StackNeverLeavesPageOne : (start 0#8 0#8 0#8 0x00#8 0x34#8 []).sp = 0 ∧
    (start 0#8 0#8 0#8 0xFF#8 0x34#8 []).sp = 0xFF#8 ∧ (List.replicate 256 0x5A#8).length = 256 :=
  ⟨rfl, rfl, List.length_replicate⟩

theorem test_witness_WorkRamHasFourImages : (0x0000#16).toNat < 0x2000 ∧ (0x1FFF#16).toNat < 0x2000 := by decide

theorem test_witness_CpuMemoryMap :
    (0x2000 ≤ (0x2000#16).toNat ∧ (0x2000#16).toNat < 0x4000) ∧ (0x2000 ≤ (0x3FFF#16).toNat ∧ (0x3FFF#16).toNat < 0x4000) ∧
    (0x4000 ≤ (0x4014#16).toNat ∧ (0x4014#16).toNat < 0x4016) ∧ (0x4000 ≤ (0x4015#16).toNat ∧ (0x4015#16).toNat < 0x4016) ∧
    (0x4000 ≤ (0x4017#16).toNat ∧ (0x4017#16).toNat < 0x4018) ∧
    0x4018 ≤ (0x4018#16).toNat ∧ 0x4018 ≤ (0xFFFF#16).toNat ∧ ∃ r, State.reset.cart = .reference r :=
  ⟨by decide, by decide, by decide, by decide, by decide, by decide, by decide, _, rfl⟩

theorem test_witness_ScrollAndAddressWrites : State.reset.ppu.w = false ∧ (State.reset.wr 0x2006#16 0#8).ppu.w = true := by decide

theorem test_witness_DataPort :
    (BitVec.ofNat 14 ((0x3EFF#15).toNat % 0x4000)).toNat < 0x3F00 ∧ 0x3F00 ≤ (BitVec.ofNat 14 ((0x7F00#15).toNat % 0x4000)).toNat := by
  decide

theorem test_witness_PpuBusReadAfterWrite : ∃ r, State.reset.cart = .reference r ∧
    ppuCell r.mirror 0x3F10#14 = ppuCell r.mirror 0x3F00#14 ∧ ppuCell r.mirror 0x2000#14 ≠ ppuCell r.mirror 0x2400#14 :=
  ⟨_, rfl, by decide, by decide⟩

theorem test_witness_OamDma :
    (0x1F#8).toNat < 0x20 ∧ (∃ r, State.reset.cart = .reference r) ∧ 0x41 ≤ (0x41#8).toNat ∧ ¬0x80 ≤ (0x7F#8).toNat ∧
    0x80 ≤ (0x80#8).toNat ∧ 0x80 ≤ (0xFF#8).toNat ∧
    ((start 0#8 0x14#8 0#8 0xFD#8 0x34#8 []).resolve (.absx 0x4000#16)).ea = 0x4014#16 ∧
    staRow (.mem (.absx 0x4000#16)) = some (.staAbsX 0x4000#16, 0x9D#8) ∧
    (State.reset.resolve (.abs 0x4014#16)).ea = 0x4014#16 ∧
    stxRow (.mem (.abs 0x4014#16)) = some (.stxAbs 0x4014#16, 0x8E#8) ∧
    styRow (.mem (.abs 0x4014#16)) = some (.styAbs 0x4014#16, 0x8C#8) :=
  ⟨by decide, ⟨_, rfl⟩, by decide, by decide, by decide, by decide, by decide, rfl, rfl, rfl, rfl⟩

/-- A state with rendering enabled and one entry in secondary OAM. -/
def lit : State := { State.reset with ppu := { State.reset.ppu with renderingEnabled := true, mask := 0x18#8, secCount := 1 } }

theorem test_witness_ScrollIncrements : lit.ppu.renderingEnabled = true ∧ coarseX lit.ppu.v = 0 ∧ coarseX 0x001F#15 = 31 := by decide

theorem test_witness_ScrollCopiesAndGating : lit.ppu.renderingEnabled = true ∧ State.reset.ppu.renderingEnabled = false := by decide

theorem test_witness_TileFetch : lit.ppu.renderingEnabled = true ∧ State.reset.ppu.renderingEnabled = false := by decide

theorem test_witness_ScrollAlgebra : fineY 0x0C1F#15 = 0 ∧ coarseY 0x0C1F#15 = 0 ∧ fineY 0x73E0#15 = 7 ∧ coarseY 0x73E0#15 = 31 := by
  decide

theorem test_witness_SecondaryOamHoldsTheFirstEight : lit.ppu.renderingEnabled = true ∧ (spritesInRange lit.ppu.oam 200 8).length < 8 := by decide

theorem test_witness_OverflowSearchHasTheBug : lit.ppu.renderingEnabled = true ∧ (spritesInRange lit.ppu.oam 0 8)[7]? = some 7 := by decide

theorem test_witness_SpriteFetchDrawsOneRow : lit.ppu.renderingEnabled = true ∧ lit.ppu.secCount ≤ 1 ∧ 0 < lit.ppu.secCount := by decide

theorem test_witness_VBlankRaisesNmi :
    NoCallHere (placed 241 0 164362 27394) ∧ 164362 < 6 * 27394 ∧ State.reset.ppu.ctrl.getLsbD 7 = false ∧
    (State.reset.wr 0x2000#16 0x80#8).ppu.ctrl.getLsbD 7 = true := ⟨.inl rfl, by decide, by decide, by decide⟩

theorem test_witness_EndOfVBlankClearsFlags : NoCallHere (placed 261 0 178002 29668) ∧ 178002 < 6 * 29668 := ⟨.inl rfl, by decide⟩

theorem test_witness_FramesAreHandedOverAndRebased :
    ((placed 240 0 163680 27281).Inv ∧ NoCallHere (placed 240 0 163680 27281) ∧ 163680 < 6 * 27281 ∧ 163680 = 682 * 240) ∧
    ((placed 261 42 178002 29781).Inv ∧ NoCallHere (placed 261 42 178002 29781) ∧ 178002 + 681 < 6 * 29781 ∧ 178002 = 682 * 261) ∧
    ((placed 261 42 178005 29782).Inv ∧ NoCallHere (placed 261 42 178005 29782) ∧ 178005 + 681 < 6 * 29782 ∧
      178005 = 682 * 261 + 3) :=
  ⟨⟨test_witness_inv_240, .inl rfl, by decide, rfl⟩, ⟨test_witness_inv_frame_end, .inl rfl, by decide, rfl⟩,
    ⟨test_witness_inv_frame_end_3, .inl rfl, by decide, rfl⟩⟩

theorem test_witness_IrqRequests :
    ({ State.reset with agenda := [.irq] } : State).agenda = .irq :: [] ∧ State.reset.p.i = true ∧
    (start 0#8 0#8 0#8 0xFD#8 0x30#8 []).p.i = false := by decide

theorem test_witness_ResetRequests : ({ State.reset with agenda := [.reset] } : State).agenda = .reset :: [] := rfl

theorem test_witness_EveryStepKeepsInv : (placed 0 0 0 0).Inv ∧ ∃ t, step (placed 0 0 0 0) = .next t :=
  ⟨test_witness_inv_frame_start, _, rfl⟩

theorem test_witness_StepsNeverRefuseAndRarelyFault :
    step (State.withFetchWord { State.reset with params := { Params.default with illegalPolicy := .fault } } 8 0x02)
      = .fault (.illegalOpcode 0x02#8) := rfl

theorem test_witness_InstructionCosts :
    (∃ t, exec .nop State.reset = .next t) ∧ ∃ a t, exec (.staAbs a) State.reset = .next t := ⟨⟨_, rfl⟩, 0x4014#16, _, rfl⟩

theorem test_witness_SpriteFlagsAreSticky :
    let s : State := { placed 261 0 178002 29668 with
      ppu := { State.reset.ppu with sprite0Hit := true, spriteOverflow := true } }
    ∃ t, step s = .next t ∧ s.ppu.sprite0Hit = true ∧ t.ppu.sprite0Hit = false ∧ s.ppu.spriteOverflow = true ∧
      t.ppu.spriteOverflow = false := ⟨_, rfl, rfl, rfl, rfl, rfl⟩

theorem test_witness_CpuAndPpuStepsKeepApart : (placed 5 3 3410 600).cpuDue = false ∧ NoCallHere (placed 5 3 3410 600) ∧
    ¬((placed 5 3 3410 600).scanline = 241 ∧ (placed 5 3 3410 600).pos = 0 ∧ (placed 5 3 3410 600).ppu.ctrl.getLsbD 7 = true) :=
  ⟨by decide, .inl rfl, by decide⟩

theorem test_witness_DoInstructionsRunsPastTheLimit :
    0 + (placed 0 0 0 1).cycleOffset6 < 6 * (placed 0 0 0 1).cycle ∧
    (∃ t, (placed 0 0 0 0).doInstructions 0 2 = some (.next t)) ∧ 6 * (placed 0 0 0 0).cycle ≤ 0 + (placed 0 0 0 0).cycleOffset6 :=
  ⟨by decide, ⟨_, rfl⟩, by decide⟩

theorem test_witness_EveryFrameEnds : (placed 0 0 0 0).Inv ∧ (placed 0 0 0 0).scanline = 0 ∧ (placed 0 0 0 0).pos = 0 ∧
    (placed 0 0 0 0).agenda = [] ∧ (placed 0 0 0 0).params.illegalPolicy = .reset :=
  ⟨test_witness_inv_frame_start, rfl, rfl, rfl, rfl⟩

theorem test_witness_FlagInstructionsAndNop : ((State.reset.withFetchWord 8 0xEA).rd (State.reset.withFetchWord 8 0xEA).pc).1 = 0xEA#8 := by decide

end Sys2Proof.Tests
end

section
/-! SUPPORT. The shape of every instruction with an operand (30 R317), as data: the operation, and the form of its operand. One
table says which instruction has which shape, one lemma ties the table to `exec`; a property of every instruction is then proved
shape by shape, and for the implied instructions one by one. -/

namespace Sys2Proof.Machine

open Sys2Proof.Claims

/-- The operations of the read instructions (files 40, 42, 43). -/
inductive ReadOp where
  | lda | ldx | ldy | adc | sbc | cmp | cpx | cpy | and | ora | eor | bit

/-- What a read instruction does with its operand. -/
def ReadOp.run : ReadOp → Byte → State → State
  | .lda => ldaOp
  | .ldx => ldxOp
  | .ldy => ldyOp
  | .adc => adcOp
  | .sbc => sbcOp
  | .cmp => cmpOp
  | .cpx => cpxOp
  | .cpy => cpyOp
  | .and => andOp
  | .ora => oraOp
  | .eor => eorOp
  | .bit => bitOp

/-- The registers a store writes to memory (40 R403 to R405). -/
inductive StoreOp where
  | sta | stx | sty

/-- The register a store writes. -/
def StoreOp.reg : StoreOp → State → Byte
  | .sta => State.a
  | .stx => State.x
  | .sty => State.y

/-- The forms of a store. -/
def StoreOp.row : StoreOp → Form → Option (Instr × Byte)
  | .sta => staRow
  | .stx => stxRow
  | .sty => styRow

/-- The operations of the read-modify-write instructions (42 R458, R461, 43 R484 to R487). -/
inductive ModifyOp where
  | inc | dec | asl | lsr | rol | ror

/-- What a read-modify-write instruction does with its operand and the flags. -/
def ModifyOp.run : ModifyOp → Modify
  | .inc => incOp
  | .dec => decOp
  | .asl => aslOp
  | .lsr => lsrOp
  | .rol => rolOp
  | .ror => rorOp

/-- The forms of a read-modify-write instruction. -/
def ModifyOp.row : ModifyOp → Form → Option (Instr × Byte)
  | .inc => incRow
  | .dec => decRow
  | .asl => aslRow
  | .lsr => lsrRow
  | .rol => rolRow
  | .ror => rorRow

/-- The conditional branches (44 R516 to R523). -/
inductive BranchOp where
  | bcc | bcs | beq | bne | bmi | bpl | bvc | bvs

/-- Whether a branch is taken. -/
def BranchOp.taken : BranchOp → Status → Bool
  | .bcc, p => !p.c
  | .bcs, p => p.c
  | .beq, p => p.z
  | .bne, p => !p.z
  | .bmi, p => p.n
  | .bpl, p => !p.n
  | .bvc, p => !p.v
  | .bvs, p => p.v

/-- The cost of a read instruction by its mode, the page-cross penalty aside (30 R320, R330). -/
def readBase : Ea → Nat
  | .zp _ => 3
  | .zpx _ | .zpy _ | .abs _ | .absx _ | .absy _ => 4
  | .indx _ => 6
  | .indy _ | .ind _ => 5

/-- Whether a read instruction has the page-cross penalty in a mode (30 R331). -/
def readPenalty : Ea → Bool
  | .absx _ | .absy _ | .indy _ => true
  | _ => false

/-- The cost of JMP by its mode (44 R510). -/
def jumpCost : Ea → Nat
  | .ind _ => 5
  | _ => 3

/-- The shapes of the instructions with an operand (30 R317). -/
inductive Shape where
  | readImm (op : ReadOp) (v : Byte)
  | readMem (op : ReadOp) (m : Ea)
  | store (op : StoreOp) (m : Ea)
  | modifyMem (op : ModifyOp) (m : Ea)
  | modifyAcc (op : ModifyOp)
  | jump (m : Ea)
  | branch (op : BranchOp) (o : Byte)

/-- The meaning of a shape. -/
def Shape.run : Shape → State → Result
  | .readImm op v => Machine.readImm v op.run
  | .readMem op m => Machine.readMem m (readBase m) (readPenalty m) op.run
  | .store op m => storeMem m (storeCost m) op.reg
  | .modifyMem op m => Machine.modifyMem m (modifyCost m) op.run
  | .modifyAcc op => Machine.modifyAcc op.run
  | .jump m => Machine.jump m (jumpCost m)
  | .branch op o => Machine.branch o fun s => op.taken s.p

/-- The shape of an instruction; none for the implied and the illegal ones. -/
def shapeOf : Instr → Option Shape
  | .ldaIndX z => some (.readMem .lda (.indx z))
  | .ldaZp z => some (.readMem .lda (.zp z))
  | .ldaImm v => some (.readImm .lda v)
  | .ldaAbs a => some (.readMem .lda (.abs a))
  | .ldaIndY z => some (.readMem .lda (.indy z))
  | .ldaZpX z => some (.readMem .lda (.zpx z))
  | .ldaAbsY a => some (.readMem .lda (.absy a))
  | .ldaAbsX a => some (.readMem .lda (.absx a))
  | .ldxImm v => some (.readImm .ldx v)
  | .ldxZp z => some (.readMem .ldx (.zp z))
  | .ldxAbs a => some (.readMem .ldx (.abs a))
  | .ldxZpY z => some (.readMem .ldx (.zpy z))
  | .ldxAbsY a => some (.readMem .ldx (.absy a))
  | .ldyImm v => some (.readImm .ldy v)
  | .ldyZp z => some (.readMem .ldy (.zp z))
  | .ldyAbs a => some (.readMem .ldy (.abs a))
  | .ldyZpX z => some (.readMem .ldy (.zpx z))
  | .ldyAbsX a => some (.readMem .ldy (.absx a))
  | .staIndX z => some (.store .sta (.indx z))
  | .staZp z => some (.store .sta (.zp z))
  | .staAbs a => some (.store .sta (.abs a))
  | .staIndY z => some (.store .sta (.indy z))
  | .staZpX z => some (.store .sta (.zpx z))
  | .staAbsY a => some (.store .sta (.absy a))
  | .staAbsX a => some (.store .sta (.absx a))
  | .stxZp z => some (.store .stx (.zp z))
  | .stxAbs a => some (.store .stx (.abs a))
  | .stxZpY z => some (.store .stx (.zpy z))
  | .styZp z => some (.store .sty (.zp z))
  | .styAbs a => some (.store .sty (.abs a))
  | .styZpX z => some (.store .sty (.zpx z))
  | .adcIndX z => some (.readMem .adc (.indx z))
  | .adcZp z => some (.readMem .adc (.zp z))
  | .adcImm v => some (.readImm .adc v)
  | .adcAbs a => some (.readMem .adc (.abs a))
  | .adcIndY z => some (.readMem .adc (.indy z))
  | .adcZpX z => some (.readMem .adc (.zpx z))
  | .adcAbsY a => some (.readMem .adc (.absy a))
  | .adcAbsX a => some (.readMem .adc (.absx a))
  | .sbcIndX z => some (.readMem .sbc (.indx z))
  | .sbcZp z => some (.readMem .sbc (.zp z))
  | .sbcImm v => some (.readImm .sbc v)
  | .sbcAbs a => some (.readMem .sbc (.abs a))
  | .sbcIndY z => some (.readMem .sbc (.indy z))
  | .sbcZpX z => some (.readMem .sbc (.zpx z))
  | .sbcAbsY a => some (.readMem .sbc (.absy a))
  | .sbcAbsX a => some (.readMem .sbc (.absx a))
  | .cmpIndX z => some (.readMem .cmp (.indx z))
  | .cmpZp z => some (.readMem .cmp (.zp z))
  | .cmpImm v => some (.readImm .cmp v)
  | .cmpAbs a => some (.readMem .cmp (.abs a))
  | .cmpIndY z => some (.readMem .cmp (.indy z))
  | .cmpZpX z => some (.readMem .cmp (.zpx z))
  | .cmpAbsY a => some (.readMem .cmp (.absy a))
  | .cmpAbsX a => some (.readMem .cmp (.absx a))
  | .cpxImm v => some (.readImm .cpx v)
  | .cpxZp z => some (.readMem .cpx (.zp z))
  | .cpxAbs a => some (.readMem .cpx (.abs a))
  | .cpyImm v => some (.readImm .cpy v)
  | .cpyZp z => some (.readMem .cpy (.zp z))
  | .cpyAbs a => some (.readMem .cpy (.abs a))
  | .incZp z => some (.modifyMem .inc (.zp z))
  | .incAbs a => some (.modifyMem .inc (.abs a))
  | .incZpX z => some (.modifyMem .inc (.zpx z))
  | .incAbsX a => some (.modifyMem .inc (.absx a))
  | .decZp z => some (.modifyMem .dec (.zp z))
  | .decAbs a => some (.modifyMem .dec (.abs a))
  | .decZpX z => some (.modifyMem .dec (.zpx z))
  | .decAbsX a => some (.modifyMem .dec (.absx a))
  | .andIndX z => some (.readMem .and (.indx z))
  | .andZp z => some (.readMem .and (.zp z))
  | .andImm v => some (.readImm .and v)
  | .andAbs a => some (.readMem .and (.abs a))
  | .andIndY z => some (.readMem .and (.indy z))
  | .andZpX z => some (.readMem .and (.zpx z))
  | .andAbsY a => some (.readMem .and (.absy a))
  | .andAbsX a => some (.readMem .and (.absx a))
  | .oraIndX z => some (.readMem .ora (.indx z))
  | .oraZp z => some (.readMem .ora (.zp z))
  | .oraImm v => some (.readImm .ora v)
  | .oraAbs a => some (.readMem .ora (.abs a))
  | .oraIndY z => some (.readMem .ora (.indy z))
  | .oraZpX z => some (.readMem .ora (.zpx z))
  | .oraAbsY a => some (.readMem .ora (.absy a))
  | .oraAbsX a => some (.readMem .ora (.absx a))
  | .eorIndX z => some (.readMem .eor (.indx z))
  | .eorZp z => some (.readMem .eor (.zp z))
  | .eorImm v => some (.readImm .eor v)
  | .eorAbs a => some (.readMem .eor (.abs a))
  | .eorIndY z => some (.readMem .eor (.indy z))
  | .eorZpX z => some (.readMem .eor (.zpx z))
  | .eorAbsY a => some (.readMem .eor (.absy a))
  | .eorAbsX a => some (.readMem .eor (.absx a))
  | .bitZp z => some (.readMem .bit (.zp z))
  | .bitAbs a => some (.readMem .bit (.abs a))
  | .aslZp z => some (.modifyMem .asl (.zp z))
  | .aslAcc => some (.modifyAcc .asl)
  | .aslAbs a => some (.modifyMem .asl (.abs a))
  | .aslZpX z => some (.modifyMem .asl (.zpx z))
  | .aslAbsX a => some (.modifyMem .asl (.absx a))
  | .lsrZp z => some (.modifyMem .lsr (.zp z))
  | .lsrAcc => some (.modifyAcc .lsr)
  | .lsrAbs a => some (.modifyMem .lsr (.abs a))
  | .lsrZpX z => some (.modifyMem .lsr (.zpx z))
  | .lsrAbsX a => some (.modifyMem .lsr (.absx a))
  | .rolZp z => some (.modifyMem .rol (.zp z))
  | .rolAcc => some (.modifyAcc .rol)
  | .rolAbs a => some (.modifyMem .rol (.abs a))
  | .rolZpX z => some (.modifyMem .rol (.zpx z))
  | .rolAbsX a => some (.modifyMem .rol (.absx a))
  | .rorZp z => some (.modifyMem .ror (.zp z))
  | .rorAcc => some (.modifyAcc .ror)
  | .rorAbs a => some (.modifyMem .ror (.abs a))
  | .rorZpX z => some (.modifyMem .ror (.zpx z))
  | .rorAbsX a => some (.modifyMem .ror (.absx a))
  | .jmpAbs a => some (.jump (.abs a))
  | .jmpInd a => some (.jump (.ind a))
  | .bcc o => some (.branch .bcc o)
  | .bcs o => some (.branch .bcs o)
  | .beq o => some (.branch .beq o)
  | .bne o => some (.branch .bne o)
  | .bmi o => some (.branch .bmi o)
  | .bpl o => some (.branch .bpl o)
  | .bvc o => some (.branch .bvc o)
  | .bvs o => some (.branch .bvs o)
  | _ => none

/-- An instruction with a shape means what its shape means. -/
theorem exec_of_shape {i : Instr} {sh : Shape} (h : shapeOf i = some sh) (s : State) : exec i s = sh.run s := by
  cases i <;> cases h <;> rfl

/-- The shape of a store is one of the forms of its mnemonic. -/
theorem row_of_shape_store {i : Instr} {op : StoreOp} {m : Ea} (h : shapeOf i = some (.store op m)) :
    ∃ b, op.row (.mem m) = some (i, b) := by
  cases i <;> cases h <;> exact ⟨_, rfl⟩

/-- The shape of a read-modify-write instruction on memory is one of the forms of its mnemonic. -/
theorem row_of_shape_modifyMem {i : Instr} {op : ModifyOp} {m : Ea} (h : shapeOf i = some (.modifyMem op m)) :
    ∃ b, op.row (.mem m) = some (i, b) := by
  cases i <;> cases h <;> exact ⟨_, rfl⟩

end Sys2Proof.Machine
end

section
/-! SUPPORT. What the CPU can do, said once for all instructions, fetches and entries: a path of bus reads, bus writes and writes of
its own registers. A fact about every instruction is an induction over this path. -/

namespace Sys2Proof.Machine

open Sys2Proof.Claims

/-- One move of the CPU: a write of its registers and of `cycle`, the audio unit's clock, a bus read or a bus write. -/
inductive CpuMove : State → State → Prop where
  | regs (s : State) (a x y sp : Byte) (pc : Addr) (p : Status) (cycle : Nat) :
      CpuMove s { s with a := a, x := x, y := y, sp := sp, pc := pc, p := p, cycle := cycle }
  | tick (s : State) (u : Apu) : CpuMove s { s with apu := u }
  | rd (s : State) (a : Addr) : CpuMove s (s.rd a).2
  | wr (s : State) (a : Addr) (d : Byte) : CpuMove s (s.wr a d)

/-- Any number of moves of the CPU. -/
abbrev CpuPath : State → State → Prop := Relation.ReflTransGen CpuMove

/-- A path may end with a write of the CPU's registers. -/
theorem CpuPath.regs {s t : State} (h : CpuPath s t) (a x y sp : Byte) (pc : Addr) (p : Status) (cycle : Nat) :
    CpuPath s { t with a := a, x := x, y := y, sp := sp, pc := pc, p := p, cycle := cycle } :=
  h.tail (.regs ..)

theorem CpuPath.rd {s t : State} (h : CpuPath s t) (a : Addr) : CpuPath s (t.rd a).2 := h.tail (.rd t a)

theorem CpuPath.wr {s t : State} (h : CpuPath s t) (a : Addr) (d : Byte) : CpuPath s (t.wr a d) := h.tail (.wr t a d)

/-- A path may end with the cost of an instruction. -/
theorem CpuPath.charge {s t : State} (h : CpuPath s t) (n : Nat) : CpuPath s (t.charge n) := h.regs _ _ _ _ _ _ _

theorem CpuPath.push {s t : State} (h : CpuPath s t) (b : Byte) : CpuPath s (t.push b) :=
  (CpuPath.wr h (stackAddr t.sp) b).regs _ _ _ _ _ _ _

theorem CpuPath.pull {s t : State} (h : CpuPath s t) : CpuPath s t.pull.2 :=
  (h.regs t.a t.x t.y (t.sp + 1) t.pc t.p t.cycle).rd _

theorem CpuPath.push16 {s t : State} (h : CpuPath s t) (w : Addr) : CpuPath s (t.push16 w) := (h.push _).push _

theorem CpuPath.pull16 {s t : State} (h : CpuPath s t) : CpuPath s t.pull16.2 := h.pull.pull

theorem CpuPath.jumpVector {s t : State} (h : CpuPath s t) (vec : Addr) : CpuPath s (t.jumpVector vec) :=
  ((CpuPath.rd h vec).rd (vec + 1)).regs _ _ _ _ _ _ _

theorem State.resolve_path (s : State) (m : Ea) : CpuPath s (s.resolve m).st := by
  cases m with
  | ind a => exact (CpuPath.rd .refl a).rd _
  | indx z => exact (CpuPath.rd .refl _).rd _
  | indy z => exact (CpuPath.rd .refl _).rd _
  | _ => exact .refl

/-- TAKING AN INTERRUPT is a path of the CPU (60 R800). -/
theorem State.enter_path (s : State) (vec : Addr) (pushPC pushP : Bool) : CpuPath s (s.enter vec pushPC pushP) := by
  have hpc : CpuPath s (if pushPC then s.push16 s.pc else s) := by
    split
    · exact CpuPath.push16 .refl _
    · exact .refl
  have hp : ∀ u, CpuPath s u → CpuPath s (if pushP then u.push u.p.pushedByEntry else u) := fun u hu => by
    split
    · exact hu.push _
    · exact hu
  have hi : ∀ u, CpuPath s u → CpuPath s u.entrySetsI := fun u hu => by
    unfold State.entrySetsI
    split
    · exact hu.regs _ _ _ _ _ _ _
    · exact hu
  exact ((hi _ (hp _ hpc)).jumpVector vec).charge 7

theorem State.doIRQ_path (s : State) : CpuPath s s.doIRQ := by
  unfold State.doIRQ
  split
  · exact .refl
  · exact s.enter_path ..

theorem State.doReset_path (s : State) : CpuPath s s.doReset := s.enter_path ..

theorem State.softwareEntry_path (s : State) : CpuPath s s.softwareEntry :=
  CpuPath.jumpVector ((((CpuPath.push16 .refl _).push _)).regs _ _ _ _ _ _ _) _

theorem State.returnFromInterrupt_path (s : State) : CpuPath s s.returnFromInterrupt :=
  (CpuPath.pull16 ((CpuPath.pull .refl).regs _ _ _ _ _ _ _)).regs _ _ _ _ _ _ _

/-- A read instruction writes `A`, `X`, `Y` and the flags alone, its operand reads aside. -/
theorem ReadOp.run_regs (op : ReadOp) (m : Byte) (s : State) :
    ∃ a x y p, op.run m s = { s with a := a, x := x, y := y, p := p } := by
  cases op <;> exact ⟨_, _, _, _, rfl⟩

theorem CpuPath.readOp {s t : State} (h : CpuPath s t) (op : ReadOp) (m : Byte) : CpuPath s (op.run m t) := by
  obtain ⟨a, x, y, p, e⟩ := op.run_regs m t
  rw [e]
  exact h.regs ..

/-- An instruction with a shape is a path of the CPU. -/
theorem Shape.run_path (sh : Shape) {s t : State} (h : sh.run s = .next t) : CpuPath s t := by
  cases sh with
  | readImm op v =>
    cases h
    exact (CpuPath.readOp .refl op v).charge 2
  | readMem op m =>
    cases h
    exact ((CpuPath.rd (s.resolve_path m) _).readOp op _).charge _
  | store op m =>
    cases h
    exact (CpuPath.wr (s.resolve_path m) _ _).charge _
  | modifyMem op m =>
    cases h
    exact (((CpuPath.rd (s.resolve_path m) _).regs _ _ _ _ _ _ _).wr _ _).charge _
  | modifyAcc op =>
    cases h
    exact (CpuPath.regs .refl _ _ _ _ _ _ _).charge _
  | jump m =>
    cases h
    exact (CpuPath.regs (s.resolve_path m) _ _ _ _ _ _ _).charge _
  | branch op o =>
    obtain ⟨pc, n, hb, -⟩ := branch_cases o (fun s => op.taken s.p) s
    cases hb.symm.trans h
    exact CpuPath.regs .refl _ _ _ _ _ _ _

/-- EVERYTHING AN INSTRUCTION CAN DO is a path of the CPU. -/
theorem exec_path {i : Instr} {s t : State} (h : exec i s = .next t) : CpuPath s t := by
  cases hs : shapeOf i with
  | some sh => exact sh.run_path ((exec_of_shape hs s).symm.trans h)
  | none =>
    cases i with
    | tax | tay | txa | tya | tsx | txs | inx | iny | dex | dey | clc | sec | cli | sei | cld | sed | clv | nop =>
      cases h
      exact CpuPath.regs .refl _ _ _ _ _ _ _
    | pha | php =>
      cases h
      exact (CpuPath.push .refl _).charge _
    | pla | plp =>
      cases h
      exact (CpuPath.pull .refl).regs _ _ _ _ _ _ _
    | jsr a =>
      cases h
      exact (CpuPath.push16 .refl _).regs _ _ _ _ _ _ _
    | rts =>
      cases h
      exact (CpuPath.pull16 .refl).regs _ _ _ _ _ _ _
    | rti =>
      cases h
      exact (s.returnFromInterrupt_path).charge _
    | brk =>
      cases h
      exact (s.softwareEntry_path).charge _
    | illegal op =>
      simp only [exec, execIllegal] at h
      split at h
      · cases h
        exact s.doReset_path
      · cases h
    | _ => cases hs

/-- FETCHING AN INSTRUCTION is a path of the CPU (30 R302). -/
theorem State.fetchBytes_path (s : State) (n : Nat) : CpuPath s (s.fetchBytes n).2 := by
  induction n generalizing s with
  | zero => exact .refl
  | succ n ih => exact (CpuPath.regs (.single (.rd s s.pc)) _ _ _ _ _ _ _).trans (ih _)

theorem State.fetch_path (s : State) : CpuPath s s.fetch.2 :=
  (s.fetchBytes_path 1).trans (State.fetchBytes_path _ _)

/-- EVERYTHING A STEP THAT ANSWERS A STATE CAN BE, in three kinds: a path of the CPU (an instruction, an IRQ or a reset), power on,
or a schedule entry. -/
theorem step_kinds {s t : State} (h : step s = .next t) :
    CpuPath s.afterCall t ∨ ((∃ rest, s.agenda = .powerOn :: rest) ∧ t = s.afterCall.rePowerOn) ∨
      (NoCallHere s ∧ s.cpuDue = false ∧ t = s.afterCall.ppuStep) := by
  rcases step_cases h with ⟨-, rfl⟩ | ⟨-, rfl⟩ | ⟨ha, rfl⟩ | ⟨ha, ⟨-, v, hv, rfl⟩ | ⟨hd, rfl⟩⟩
  · exact .inl (State.doIRQ_path _)
  · exact .inl (State.doReset_path _)
  · exact .inr (.inl ⟨⟨_, List.eq_cons_of_mem_head? ha⟩, rfl⟩)
  · exact .inl (((State.fetch_path _).trans (exec_path hv)).tail (.tick v _))
  · exact .inr (.inr ⟨ha.imp_right fun h => ⟨_, List.eq_cons_of_mem_head? h⟩, hd, rfl⟩)

end Sys2Proof.Machine
end

section
/-! SUPPORT. The stack and the entries in the words of the statements: pushes one by one, the pushed copies of `P`, and every
interrupt entry as its pushes and its vector fetch. -/

namespace Sys2Proof.Claims

open Sys2Proof.Machine

theorem Pushed.nil (s : State) : Pushed s s [] := ⟨by simp, fun j hj => absurd hj (Nat.not_lt_zero j), fun _ _ => rfl⟩

/-- The stack cells of fewer than 256 pushes are different cells. -/
theorem stackCell_ne (sp : Byte) {j n : Nat} (hj : j < n) (hn : n < 256) :
    0x100 + (sp - BitVec.ofNat 8 n).toNat ≠ 0x100 + (sp - BitVec.ofNat 8 j).toNat := by
  simp only [BitVec.toNat_sub, BitVec.toNat_ofNat]
  have := sp.isLt
  omega

/-- One more push: at most 256 bytes are pushed in all (41 R430, R438). -/
theorem Pushed.push {s t : State} {bs : List Byte} (h : Pushed s t bs) (hn : bs.length < 256) (b : Byte) :
    Pushed s (t.push b) (bs ++ [b]) := by
  obtain ⟨hsp, hcells, hframe⟩ := h
  rw [State.push_eq]
  refine ⟨?_, fun j hj => ?_, fun k hk => ?_⟩
  · simp only [hsp, List.length_append, List.length_singleton, BitVec.ofNat_add]
    rw [BitVec.sub_sub]
    rfl
  · dsimp only
    rw [hsp]
    rw [List.length_append, List.length_singleton] at hj
    rcases Nat.lt_succ_iff_lt_or_eq.1 hj with hlt | rfl
    · rw [Table.read_write_other _ _ _ (stackCell_ne s.sp hlt hn), hcells j hlt, List.getD_append _ _ _ _ hlt]
    · rw [Table.read_write_same, List.getD_append_right _ _ _ _ (Nat.le_refl _), Nat.sub_self]
      rfl
  · rw [List.length_append, List.length_singleton] at hk
    dsimp only
    rw [hsp, Table.read_write_other _ _ _ (hk bs.length (Nat.lt_succ_self _)).symm]
    exact hframe k fun j hj => hk j (Nat.lt_succ_of_lt hj)

/-- What Pushed says is kept when registers other than `SP` are written. -/
theorem Pushed.congr {s t u : State} {bs : List Byte} (h : Pushed s t bs) (hr : u.ram = t.ram) (hsp : u.sp = t.sp) :
    Pushed s u bs := by
  unfold Pushed
  rw [hr, hsp]
  exact h

/-- `t` is `s` after the pushes of `bs` and nothing else. -/
structure PushedOnly (s t : State) (bs : List Byte) : Prop where
  pushed : Pushed s t bs
  core : t = { s with ram := t.ram, sp := t.sp }

theorem PushedOnly.nil (s : State) : PushedOnly s s [] := ⟨.nil s, rfl⟩

theorem PushedOnly.push {s t : State} {bs : List Byte} (h : PushedOnly s t bs) (hn : bs.length < 256) (b : Byte) :
    PushedOnly s (t.push b) (bs ++ [b]) :=
  ⟨h.pushed.push hn b, by rw [State.push_eq, h.core]⟩

theorem hiByte_eq (w : Addr) : hiByte w = BitVec.ofNat 8 (w.toNat / 256) := by
  have := w.isLt
  apply BitVec.eq_of_toNat_eq
  rw [hiByte_toNat, BitVec.toNat_ofNat]
  omega

theorem loByte_eq (w : Addr) : loByte w = BitVec.ofNat 8 (w.toNat % 256) := by
  apply BitVec.eq_of_toNat_eq
  rw [loByte_toNat, BitVec.toNat_ofNat]
  omega

/-- `push16` pushes the two bytes of an address, high byte first (41 R432). -/
theorem PushedOnly.push16 {s t : State} {bs : List Byte} (h : PushedOnly s t bs) (hn : bs.length < 255) (w : Addr) :
    PushedOnly s (t.push16 w) (bs ++ highLow w) := by
  have h2 := (h.push (Nat.lt_succ_of_lt hn) (hiByte w)).push (by rw [List.length_append]; exact Nat.succ_lt_succ hn) (loByte w)
  rw [List.append_assoc, hiByte_eq, loByte_eq] at h2
  rw [State.push16, hiByte_eq, loByte_eq]
  exact h2

/-- The register `P` as a byte (10 R103, R104). -/
theorem toByte_eq_statusByte (p : Status) : p.toByte = statusByte p := by
  obtain ⟨n, v, d, i, z, c⟩ := p
  revert n v d i z c
  decide

/-- What PHP and BRK push: bits 4 and 5 are set already (10 R104). -/
theorem pushedByInstr_eq_statusByte (p : Status) : p.pushedByInstr = statusByte p := by
  obtain ⟨n, v, d, i, z, c⟩ := p
  revert n v d i z c
  decide

/-- What an interrupt entry pushes (60 R800). -/
theorem pushedByEntry_eq_entryByte (p : Status) : p.pushedByEntry = entryByte p := by
  obtain ⟨n, v, d, i, z, c⟩ := p
  revert n v d i z c
  decide

/-- The flags of a pulled byte (10 R103, R104). -/
theorem ofByte_eq_flagsOf (b : Byte) : Status.ofByte b = flagsOf b := by
  revert b
  decide

theorem word_eq_le16 (lo hi : Byte) : word lo hi = le16 lo hi := by
  apply BitVec.eq_of_toNat_eq
  have := lo.isLt
  have := hi.isLt
  rw [word_toNat, le16, BitVec.toNat_ofNat]
  omega

/-- The bytes an interrupt entry pushes (60 R800). -/
def entryBytes (s : State) (pushPC pushP : Bool) : List Byte :=
  (if pushPC then highLow s.pc else []) ++ if pushP then [entryByte s.p] else []

/-- The write of `I` of an entry (60 R800). -/
theorem entrySetsI_eq (s : State) : s.entrySetsI = { s with p := { s.p with i := s.p.i || s.params.intEntrySetsI } } := by
  unfold State.entrySetsI
  cases s.params.intEntrySetsI <;> simp

/-- TAKING AN INTERRUPT as its pushes, its write of `I` and its vector fetch (60 R800). -/
theorem enter_pushed (s : State) (vec : Addr) (pushPC pushP : Bool) :
    ∃ u, Pushed s u (entryBytes s pushPC pushP) ∧
      u = { s with ram := u.ram, sp := u.sp, p := { s.p with i := s.p.i || s.params.intEntrySetsI } } ∧
      s.enter vec pushPC pushP = (u.jumpVector vec).charge 7 := by
  have hpc : PushedOnly s (if pushPC then s.push16 s.pc else s) (if pushPC then highLow s.pc else []) := by
    split
    · exact (PushedOnly.nil s).push16 (Nat.zero_lt_succ _) s.pc
    · exact .nil s
  have hlen : (if pushPC then highLow s.pc else []).length < 256 := by split <;> simp [highLow]
  have hp : ∀ t bs, PushedOnly s t bs → bs.length < 256 →
      PushedOnly s (if pushP then t.push t.p.pushedByEntry else t) (bs ++ if pushP then [entryByte s.p] else []) := by
    intro t bs h hn
    have htp : t.p = s.p := by rw [h.core]
    split
    · rw [htp, pushedByEntry_eq_entryByte]
      exact h.push hn _
    · rw [List.append_nil]
      exact h
  obtain ⟨hpushed, hcore⟩ := hp _ _ hpc hlen
  refine ⟨_, hpushed.congr (u := State.entrySetsI _) ?_ ?_, ?_, rfl⟩
  · rw [entrySetsI_eq]
  · rw [entrySetsI_eq]
  · rw [entrySetsI_eq, hcore]

/-- A vector fetch in the words of the statements (20 R208), whatever is charged for it. -/
theorem vectorTaken_jumpVector (u : State) (vec : Nat) (n : Nat) :
    VectorTaken u vec ((u.jumpVector (BitVec.ofNat 16 vec)).charge n) := by
  have hv : BitVec.ofNat 16 vec + 1 = BitVec.ofNat 16 (vec + 1) := (BitVec.ofNat_add ..).symm
  unfold VectorTaken State.jumpVector State.rd16
  dsimp only
  rw [hv, word_eq_le16]
  exact ⟨rfl, (u.rd_frame _).trans (State.rd_frame _ _)⟩

/-- EVERY INTERRUPT ENTRY in the words of the statements (60 R800). -/
theorem entryTaken_enter (s : State) (vec : Nat) (pushPC pushP : Bool) :
    EntryTaken s vec (entryBytes s pushPC pushP) s.params.intEntrySetsI (s.enter (BitVec.ofNat 16 vec) pushPC pushP) := by
  obtain ⟨u, hpushed, hu, he⟩ := enter_pushed s (BitVec.ofNat 16 vec) pushPC pushP
  rw [he]
  refine ⟨u, hpushed, hu, vectorTaken_jumpVector u vec 7, ?_⟩
  obtain ⟨v, hf, hv⟩ := u.jumpVector_frame (BitVec.ofNat 16 vec)
  rw [State.charge_cycle, hv, hf.core, hu]

end Sys2Proof.Claims
end

section
/-! Settles O12 and O50. -/

namespace Sys2Proof.Proofs

open Sys2Proof.Machine Sys2Proof.Claims

/-- Settles O12, by the closed forms of push, pull and the return from an interrupt. -/
theorem pushAndPullStatus : Obligations.PushAndPullStatus := by
  refine ⟨rfl, rfl, rfl, toByte_eq_statusByte, fun s => ⟨(s.push s.p.pushedByInstr).charge 3, rfl, ?_, ?_⟩,
    fun s => ?_, fun s => ?_⟩
  · rw [← pushedByInstr_eq_statusByte]
    exact ((Pushed.nil s).push (Nat.zero_lt_succ _) _).congr rfl rfl
  · rw [State.push_eq]
    rfl
  · simp only [exec, execPlp, implied, State.pull_eq, ofByte_eq_flagsOf]
    rfl
  · have h2 : s.sp + 1 + 1 = s.sp + 2 := BitVec.add_assoc ..
    have h3 : s.sp + 2 + 1 = s.sp + 3 := BitVec.add_assoc ..
    simp only [exec, execRti, implied, State.returnFromInterrupt_eq, ofByte_eq_flagsOf, word_eq_le16, h2, h3]
    rfl

/-- Settles O50: the reset call is an entry that pushes no `PC`, and its bus reads leave the registers and the Scheduler alone. -/
theorem resetRequests : Obligations.ResetRequests := by
  intro s rest ha
  have ht : taken s = { s with agenda := rest } := by unfold taken; rw [ha]; rfl
  refine ⟨(taken s).doReset, by unfold step; rw [ha, ht], ?_, ?_⟩
  · have h := entryTaken_enter (taken s) 0xFFFC false s.params.resetPushesP
    simp only [entryBytes, Bool.false_eq_true, if_false, List.nil_append] at h
    exact h
  · obtain ⟨ram, sp, p, u, hf, -, pc, he⟩ := (taken s).enter_frame resetVector false s.params.resetPushesP
    have hd : (taken s).doReset = _ := he
    rw [hd, hf.core]
    exact ⟨rfl, rfl, rfl, rfl, rfl, rfl⟩

end Sys2Proof.Proofs
end

section
/-! SUPPORT. What the CPU and the schedule leave alone: the frame of every path of the CPU, and of an entry that raises no NMI. -/

namespace Sys2Proof.Machine

open Sys2Proof.Claims

/-- `t` differs from `s` at most by what instructions can change: CPU registers, `cycle`, work RAM, the collaborators, and of the PPU
what the eight registers reach; no Scheduler state, no picture, no sprite flag and no part of the sprite and tile pipeline. -/
structure CpuFrame (s t : State) : Prop where
  core : t = { s with
    a := t.a, x := t.x, y := t.y, sp := t.sp, pc := t.pc, p := t.p, cycle := t.cycle, ram := t.ram
    ppu := t.ppu, cart := t.cart, apu := t.apu, pad0 := t.pad0, pad1 := t.pad1 }
  ppu : t.ppu = { t.ppu with
    sprite0Hit := s.ppu.sprite0Hit, spriteOverflow := s.ppu.spriteOverflow, sec := s.ppu.sec, secCount := s.ppu.secCount
    sprite0InSec := s.ppu.sprite0InSec, bgBuf := s.ppu.bgBuf, layerBehind := s.ppu.layerBehind
    layerSpr0 := s.ppu.layerSpr0, layerFront := s.ppu.layerFront, frame := s.ppu.frame }

theorem CpuFrame.refl (s : State) : CpuFrame s s := ⟨rfl, rfl⟩

theorem CpuFrame.trans {s t u : State} (h : CpuFrame s t) (k : CpuFrame t u) : CpuFrame s u where
  core := by rw [k.core, h.core]
  ppu := by rw [k.ppu, h.ppu]

theorem CpuMove.frame {s t : State} (h : CpuMove s t) : CpuFrame s t := by
  cases h with
  | regs => exact ⟨rfl, rfl⟩
  | tick => exact ⟨rfl, rfl⟩
  | rd a => exact ⟨by rw [(s.rd_frame a).core], by rw [(s.rd_frame a).ppu]⟩
  | wr a d => exact ⟨by rw [(s.wr_frame a d).core], by rw [(s.wr_frame a d).ppu]⟩

/-- EVERYTHING THE CPU LEAVES ALONE (10 R107, R140, R134). -/
theorem CpuPath.frame {s t : State} (h : CpuPath s t) : CpuFrame s t := by
  induction h with
  | refl => exact .refl s
  | tail _ m ih => exact ih.trans m.frame

/-- A bus read of the cartridge's space has no effect outside the cartridge (20 R204). -/
theorem State.rd_cartridge (s : State) {a : Addr} (h : 0x4018 ≤ a.toNat) :
    s.rd a = ((s.cart.cpuRead a).1, { s with cart := (s.cart.cpuRead a).2 }) := by
  unfold State.rd
  rw [if_neg (by omega), if_neg (by omega), if_neg (by omega)]

/-- A vector fetch from the cartridge's space changes `PC` and the cartridge alone (20 R208). -/
theorem State.jumpVector_cartridge (s : State) {vec : Addr} (h0 : 0x4018 ≤ vec.toNat) (h1 : 0x4018 ≤ (vec + 1).toNat) :
    ∃ pc cart, s.jumpVector vec = { s with pc := pc, cart := cart } := by
  simp only [State.jumpVector, State.rd16, State.rd_cartridge _ h0, State.rd_cartridge _ h1]
  exact ⟨_, _, rfl⟩

/-- Taking an interrupt through a vector in the cartridge's space changes nothing but work RAM, `SP`, `P`, `PC`, `cycle` and the
cartridge (20 R208, 60 R800). -/
theorem State.enter_cartridge (s : State) {vec : Addr} (h0 : 0x4018 ≤ vec.toNat) (h1 : 0x4018 ≤ (vec + 1).toNat)
    (pushPC pushP : Bool) :
    ∃ ram sp p pc cycle cart, s.enter vec pushPC pushP =
      { s with ram := ram, sp := sp, p := p, pc := pc, cycle := cycle, cart := cart } := by
  obtain ⟨u, -, hu, he⟩ := enter_pushed s vec pushPC pushP
  obtain ⟨pc, cart, hj⟩ := u.jumpVector_cartridge h0 h1
  rw [he, hj, hu]
  exact ⟨_, _, _, _, _, _, rfl⟩

/-- The operations of the entry the Scheduler is at are those of an entry of the scanline's schedule, or none. -/
theorem State.entry_ops (s : State) {op : SchedOp} (h : op ∈ s.entry.ops) :
    ∃ e, (sched s.scanline)[s.pos]? = some e ∧ op ∈ e.ops := by
  unfold State.entry at h
  cases he : (sched s.scanline)[s.pos]? with
  | none => rw [he] at h; exact absurd h (List.not_mem_nil)
  | some e => rw [he] at h; exact ⟨e, rfl, h⟩

/-- An entry lists `doVBlank` only as the first of scanline 241 (49 R714). -/
theorem State.doVBlank_entry (s : State) (h : SchedOp.doVBlank ∈ s.entry.ops) : s.scanline = 241 ∧ s.pos = 0 := by
  obtain ⟨e, he, ho⟩ := s.entry_ops h
  have hl : s.scanline = 241 := by
    by_contra hl
    exact doVBlank_not_mem hl (List.mem_of_getElem? he) ho
  have hp := (List.getElem?_eq_some_iff.1 he).1
  rw [hl] at hp
  exact ⟨hl, Nat.lt_one_iff.1 hp⟩

/-- The first entry of scanline 241 is `doVBlank` alone (49 R714). -/
theorem State.entry_241 (s : State) (hl : s.scanline = 241) (hp : s.pos = 0) : s.entry.ops = [.doVBlank] := by
  unfold State.entry
  rw [hl, hp]
  rfl

section

variable {s : State}

/-- Moving on inside a scanline (49 R706). -/
theorem State.advance_entry (h : s.pos + 1 < (sched s.scanline).length) : s.advance = { s with pos := s.pos + 1 } := if_pos h

/-- Moving on after the last entry of a scanline but 261 (49 R705). -/
theorem State.advance_line (h : ¬s.pos + 1 < (sched s.scanline).length) (hl : s.scanline ≠ 261) :
    s.advance = { s with cycleOffset6 := s.cycleOffset6 + line6 s.scanline, pos := 0, scanline := s.scanline + 1 } := by
  have hne : ¬s.scanline + 1 = 262 := by omega
  exact (if_neg h).trans (if_neg hne)

/-- Moving on after the last entry of scanline 261: the end of the frame (49 R705, R730). -/
theorem State.advance_frame (h : ¬s.pos + 1 < (sched s.scanline).length) (hl : s.scanline = 261) :
    s.advance = { s with
      cycle := s.cycle - (s.cycleOffset6 + line6 s.scanline) / 6
      cycleOffset6 := s.cycleOffset6 + line6 s.scanline - 6 * ((s.cycleOffset6 + line6 s.scanline) / 6)
      scanline := 0, pos := 0, frameCount := s.frameCount + 1 } := by
  have he : s.scanline + 1 = 262 := by omega
  exact (if_neg h).trans (if_pos he)

end

/-- Moving on in the schedule changes the Scheduler's fields and `cycle` alone (49 R705, R706, R730). -/
theorem State.advance_eq (s : State) : ∃ cyc off line pos count,
    s.advance = { s with cycle := cyc, cycleOffset6 := off, scanline := line, pos := pos, frameCount := count } := by
  by_cases h : s.pos + 1 < (sched s.scanline).length
  · exact ⟨_, _, _, _, _, State.advance_entry h⟩
  · by_cases hl : s.scanline = 261
    · exact ⟨_, _, _, _, _, State.advance_frame h hl⟩
    · exact ⟨_, _, _, _, _, State.advance_line h hl⟩

/-- `doVBlank` with the NMI disabled sets the flag alone (48 R690). -/
theorem State.doVBlank_of_disabled (s : State) (h : s.ppu.nmiEnable = false) :
    s.doVBlank = { s with ppu := { s.ppu with vblank := true } } := by
  unfold State.doVBlank
  exact if_neg (by rw [show (Ppu.nmiEnable { s.ppu with vblank := true }) = s.ppu.nmiEnable from rfl, h]; decide)

/-- A PPU step that raises no NMI leaves the whole CPU, work RAM, the audio unit, the controllers and the parameters alone. -/
theorem State.ppuStep_quiet (s : State) (h : ¬(s.scanline = 241 ∧ s.pos = 0 ∧ s.ppu.nmiEnable = true)) :
    ∃ cyc off line pos count ppu cart done last, s.ppuStep = { s with
      cycle := cyc, cycleOffset6 := off, scanline := line, pos := pos, frameCount := count
      ppu := ppu, cart := cart, framesDone := done, lastFrame := last } := by
  have hf : PipelineFrame s (s.entry.ops.foldl State.perform s) := by
    by_cases hv : SchedOp.doVBlank ∈ s.entry.ops
    · obtain ⟨hl, hp⟩ := s.doVBlank_entry hv
      have hn : s.ppu.nmiEnable = false := Bool.eq_false_iff.2 fun hn => h ⟨hl, hp, hn⟩
      rw [s.entry_241 hl hp, List.foldl_cons, List.foldl_nil, State.perform, s.doVBlank_of_disabled hn]
      exact .withPpu s _
    · exact s.performAll_frame hv
  obtain ⟨cyc, off, line, pos, count, ha⟩ := State.advance_eq (s.entry.ops.foldl State.perform s)
  unfold State.ppuStep
  rw [ha, hf.core]
  exact ⟨_, _, _, _, _, _, _, _, _, rfl⟩

/-- A PPU step at the first entry of scanline 241 leaves `A`, `X`, `Y`, the audio unit, the controllers and the parameters alone,
NMI or not (48 R690, 60 R801). -/
theorem State.ppuStep_vblank (s : State) (hl : s.scanline = 241) (hp : s.pos = 0) :
    s.ppuStep.a = s.a ∧ s.ppuStep.x = s.x ∧ s.ppuStep.y = s.y ∧ s.ppuStep.apu = s.apu ∧ s.ppuStep.pad0 = s.pad0 ∧
      s.ppuStep.pad1 = s.pad1 ∧ s.ppuStep.params = s.params := by
  obtain ⟨cyc, off, line, pos, count, ha⟩ := State.advance_eq s.doVBlank
  have hs : s.ppuStep = s.doVBlank.advance := by
    rw [State.ppuStep, s.entry_241 hl hp, List.foldl_cons, List.foldl_nil, State.perform]
  rw [hs, ha]
  unfold State.doVBlank State.doNMI
  dsimp only
  split
  · obtain ⟨ram, sp, p, pc, cycle, cart, he⟩ := State.enter_cartridge { s with ppu := { s.ppu with vblank := true } }
      (vec := nmiVector) (by decide) (by decide) true true
    rw [he]
    exact ⟨rfl, rfl, rfl, rfl, rfl, rfl, rfl⟩
  · exact ⟨rfl, rfl, rfl, rfl, rfl, rfl, rfl⟩

/-- A step at a place without a call of the environment, the CPU not due, is a PPU step (49 R706, 60 R812). -/
theorem step_ppu {s : State} (ha : NoCallHere s) (hd : s.cpuDue = false) : step s = .next (taken s).ppuStep := by
  have hm : ∀ u : State, u.cpuDue = s.cpuDue → u.machineStep = .next u.ppuStep := fun u hu => by
    unfold State.machineStep
    rw [hu, hd]
    rfl
  rcases ha with ha | ⟨rest, ha⟩
  · have ht : taken s = s := by cases s; cases ha; rfl
    unfold step
    rw [ha, ht]
    exact hm s rfl
  · have ht : taken s = { s with agenda := rest } := by unfold taken; rw [ha]; rfl
    unfold step
    rw [ha, ht]
    exact hm _ rfl

end Sys2Proof.Machine
end

section
/-! Settles O57. -/

namespace Sys2Proof.Proofs

open Sys2Proof.Machine Sys2Proof.Claims

/-- Settles O57: an instruction is a path of the CPU, whose frame is `CpuPath.frame`; a schedule entry that raises no NMI leaves the
CPU alone, and the NMI's entry reads its vector from the cartridge. -/
theorem cpuAndPpuStepsKeepApart : Obligations.CpuAndPpuStepsKeepApart := by
  refine ⟨fun i s t h => ⟨(exec_path h).frame.core, (exec_path h).frame.ppu⟩, fun s ha hd => ⟨_, step_ppu ha hd, ?_⟩⟩
  by_cases hv : s.scanline = 241 ∧ s.pos = 0 ∧ s.ppu.nmiEnable = true
  · obtain ⟨ha, hx, hy, hu, h0, h1, hq⟩ := (taken s).ppuStep_vblank hv.1 hv.2.1
    exact ⟨ha, hx, hy, hu, h0, h1, hq, fun hn => absurd hv hn⟩
  · obtain ⟨cyc, off, line, pos, count, ppu, cart, done, last, he⟩ := (taken s).ppuStep_quiet hv
    rw [he]
    exact ⟨rfl, rfl, rfl, rfl, rfl, rfl, rfl, fun _ => ⟨rfl, rfl, rfl, rfl⟩⟩

end Sys2Proof.Proofs
end

section
/-! SUPPORT. What each operation of the schedule does to the PPU, as an equation with what it keeps canonical: the lemmas that the
invariant and the sprite flags are proved from. -/

namespace Sys2Proof.Machine

/-- `t` differs from `s` at most by the cartridge's own state, whose memories stay canonical. -/
def OnlyCart (s t : State) : Prop := ∃ c, t = { s with cart := c } ∧ (s.cart.MemoriesWf → c.MemoriesWf)

theorem OnlyCart.trans {s t u : State} (h : OnlyCart s t) (k : OnlyCart t u) : OnlyCart s u := by
  obtain ⟨c, rfl, hw⟩ := h
  obtain ⟨d, rfl, kw⟩ := k
  exact ⟨d, rfl, fun e => kw (hw e)⟩

theorem OnlyCart.refl (s : State) : OnlyCart s s := ⟨s.cart, rfl, id⟩

/-- A PPU bus read under the palette changes the cartridge's own state alone (20 R214). -/
theorem State.ppuReadUnder_onlyCart (s : State) (a : PpuAddr) : OnlyCart s (s.ppuReadUnder a).2 := by
  unfold State.ppuReadUnder
  dsimp only
  split
  · exact ⟨_, rfl, by cases s.cart <;> exact id⟩
  · exact ⟨_, rfl, by cases s.cart <;> exact id⟩

/-- A PPU bus read changes the cartridge's own state alone (20 R214). -/
theorem State.ppuRead_onlyCart (s : State) (a : PpuAddr) : OnlyCart s (s.ppuRead a).2 := by
  unfold State.ppuRead
  split
  · exact .refl s
  · exact s.ppuReadUnder_onlyCart a

/-- A scroll operation changes `v` alone (47 R640). -/
theorem State.scroll_eq (s : State) (f : VAddr → VAddr → VAddr) :
    ∃ v, s.scroll f = { s with ppu := { s.ppu with v := v } } := by
  unfold State.scroll
  split
  · exact ⟨_, rfl⟩
  · exact ⟨s.ppu.v, rfl⟩

/-- `fetchTile` changes `v`, the tile buffer and the cartridge's own state alone (47 R650). -/
theorem State.fetchTile_eq (s : State) :
    ∃ c v new, s.fetchTile = { s with cart := c, ppu := { s.ppu with v := v, bgBuf := shiftIn s.ppu.bgBuf new } } ∧
      (s.cart.MemoriesWf → c.MemoriesWf) := by
  have key : ∀ t buf, OnlyCart s t → ∃ c v, ({ t with ppu := { t.ppu with bgBuf := buf } } : State).incrementX =
      { s with cart := c, ppu := { s.ppu with v := v, bgBuf := buf } } ∧ (s.cart.MemoriesWf → c.MemoriesWf) := by
    rintro t buf ⟨c, rfl, hw⟩
    obtain ⟨v, hv⟩ := State.scroll_eq { s with cart := c, ppu := { s.ppu with bgBuf := buf } } fun v _ => incX v
    exact ⟨c, v, hv, hw⟩
  unfold State.fetchTile
  split
  · obtain ⟨c, v, he, hw⟩ := key _ _ ((((s.ppuRead_onlyCart _).trans (State.ppuRead_onlyCart _ _)).trans
      (State.ppuRead_onlyCart _ _)).trans (State.ppuRead_onlyCart _ _))
    exact ⟨c, v, _, he, hw⟩
  · exact ⟨s.cart, s.ppu.v, _, rfl, id⟩

/-- Drawing a row keeps a layer canonical: pixels past the right edge are cut off (48 R676). -/
theorem drawRow_wf (layer : Table Pixel) (attr : Byte) (xpos : Nat) (lo hi : Byte) (h : layer.wf 0#4 256 = true) :
    (drawRow layer attr xpos lo hi).wf 0#4 256 = true := by
  unfold drawRow
  generalize List.range 8 = l
  induction l generalizing layer with
  | nil => exact h
  | cons j l ih =>
    rw [List.foldl_cons]
    apply ih
    dsimp only
    generalize planeColour lo hi _ = colour
    split
    · next hd => exact Table.wf_write _ _ _ (by omega) h
    · exact h

/-- `fetchSprite` changes the three layers and the cartridge's own state alone (48 R676). -/
theorem State.fetchSprite_eq (s : State) (i line : Nat) :
    ∃ c b z f, s.fetchSprite i line =
        { s with cart := c, ppu := { s.ppu with layerBehind := b, layerSpr0 := z, layerFront := f } } ∧
      (s.cart.MemoriesWf → c.MemoriesWf) ∧
      (s.ppu.layerBehind.wf 0#4 256 = true → b.wf 0#4 256 = true) ∧
      (s.ppu.layerSpr0.wf 0#4 256 = true → z.wf 0#4 256 = true) ∧
      (s.ppu.layerFront.wf 0#4 256 = true → f.wf 0#4 256 = true) := by
  unfold State.fetchSprite
  split
  · dsimp only
    generalize spriteAddr _ _ _ _ _ = addr
    obtain ⟨c, hc, hw⟩ := (s.ppuRead_onlyCart addr).trans (State.ppuRead_onlyCart _ (addr ||| 8#14))
    rw [hc]
    split
    · exact ⟨c, _, _, _, rfl, hw, id, drawRow_wf _ _ _ _ _, id⟩
    · split
      · exact ⟨c, _, _, _, rfl, hw, drawRow_wf _ _ _ _ _, id, id⟩
      · exact ⟨c, _, _, _, rfl, hw, id, id, drawRow_wf _ _ _ _ _⟩
  · exact ⟨s.cart, _, _, _, rfl, id, id, id, id⟩

/-- `doVBlank` sets the flag and is a path of the CPU from there (48 R690). -/
theorem State.doVBlank_path (s : State) : CpuPath { s with ppu := { s.ppu with vblank := true } } s.doVBlank := by
  unfold State.doVBlank
  dsimp only
  split
  · exact State.enter_path ..
  · exact .refl

/-- No operation moves the Scheduler (49 R706). -/
theorem State.perform_place (s : State) (op : SchedOp) : (s.perform op).scanline = s.scanline ∧ (s.perform op).pos = s.pos ∧
    (s.perform op).cycleOffset6 = s.cycleOffset6 := by
  by_cases h : op = .doVBlank
  · subst h
    have hp : s.perform .doVBlank = _ := s.doVBlank_path.frame.core
    rw [hp]
    exact ⟨rfl, rfl, rfl⟩
  · rw [(s.perform_frame h).core]
    exact ⟨rfl, rfl, rfl⟩

/-- Nor do any number of operations. -/
theorem State.performAll_place (s : State) (ops : List SchedOp) : (ops.foldl State.perform s).scanline = s.scanline ∧
    (ops.foldl State.perform s).pos = s.pos ∧ (ops.foldl State.perform s).cycleOffset6 = s.cycleOffset6 := by
  induction ops generalizing s with
  | nil => exact ⟨rfl, rfl, rfl⟩
  | cons op ops ih =>
    obtain ⟨hl, hp, ho⟩ := s.perform_place op
    rw [← hl, ← hp, ← ho]
    exact ih _

end Sys2Proof.Machine
end

section
/-! Settles O56: the sprite flags along one operation, one entry and one step. -/

namespace Sys2Proof.Machine

/-- `t` has each sprite flag that `s` has. -/
structure SpriteFlagsKept (s t : State) : Prop where
  hit : s.ppu.sprite0Hit = true → t.ppu.sprite0Hit = true
  overflow : s.ppu.spriteOverflow = true → t.ppu.spriteOverflow = true

theorem SpriteFlagsKept.refl (s : State) : SpriteFlagsKept s s := ⟨id, id⟩

theorem SpriteFlagsKept.trans {s t u : State} (h : SpriteFlagsKept s t) (k : SpriteFlagsKept t u) : SpriteFlagsKept s u :=
  ⟨fun e => k.hit (h.hit e), fun e => k.overflow (h.overflow e)⟩

/-- No instruction, interrupt or register read clears a sprite flag (46 R604). -/
theorem CpuPath.spriteFlagsKept {s t : State} (h : CpuPath s t) : SpriteFlagsKept s t :=
  ⟨fun e => by rw [h.frame.ppu]; exact e, fun e => by rw [h.frame.ppu]; exact e⟩

theorem State.renderPixel_spriteFlagsKept (s : State) (line k i : Nat) : SpriteFlagsKept s (s.renderPixel line k i) :=
  ⟨fun h => by simp [State.renderPixel, h], id⟩

theorem State.renderTile_spriteFlagsKept (s : State) (line k : Nat) : SpriteFlagsKept s (s.renderTile line k) := by
  unfold State.renderTile
  generalize List.range 8 = l
  induction l generalizing s with
  | nil => exact .refl s
  | cons i l ih => exact (s.renderPixel_spriteFlagsKept line k i).trans (ih _)

theorem State.evaluateSprites_spriteFlagsKept (s : State) (line : Nat) : SpriteFlagsKept s (s.evaluateSprites line) := by
  unfold State.evaluateSprites
  split
  · exact ⟨id, fun h => by simp [h]⟩
  · exact .refl s

/-- No operation but `endVBlank` clears a sprite flag (48 R673, R686, R691). -/
theorem State.perform_spriteFlagsKept (s : State) {op : SchedOp} (h : op ≠ .endVBlank) : SpriteFlagsKept s (s.perform op) := by
  have scroll : ∀ f, SpriteFlagsKept s (s.scroll f) := fun f => by
    obtain ⟨v, hv⟩ := s.scroll_eq f
    rw [hv]
    exact ⟨id, id⟩
  cases op with
  | endVBlank => exact absurd rfl h
  | clearSecondaryOAM => exact ⟨id, id⟩
  | evaluateSprites => exact s.evaluateSprites_spriteFlagsKept _
  | clearSpriteLayers => exact ⟨id, id⟩
  | fetchSprite i =>
    obtain ⟨c, b, z, f, he, -⟩ := s.fetchSprite_eq i s.scanline
    rw [State.perform, he]
    exact ⟨id, id⟩
  | renderTile k => exact s.renderTile_spriteFlagsKept _ k
  | fetchTile =>
    obtain ⟨c, v, new, he, -⟩ := s.fetchTile_eq
    rw [State.perform, he]
    exact ⟨id, id⟩
  | incrementY => exact scroll fun v _ => incY v
  | resetX => exact scroll copyX
  | resetY => exact scroll copyY
  | frameDone => exact ⟨id, id⟩
  | doVBlank =>
    have hk := s.doVBlank_path.spriteFlagsKept
    exact ⟨hk.hit, hk.overflow⟩

theorem State.performAll_spriteFlagsKept (s : State) {ops : List SchedOp} (h : SchedOp.endVBlank ∉ ops) :
    SpriteFlagsKept s (ops.foldl State.perform s) := by
  induction ops generalizing s with
  | nil => exact .refl s
  | cons op ops ih =>
    rw [List.mem_cons, not_or] at h
    exact (s.perform_spriteFlagsKept fun he => h.1 he.symm).trans (ih _ h.2)

/-- An entry lists `endVBlank` only as the first of scanline 261 (49 R715). -/
theorem State.endVBlank_entry (s : State) (h : SchedOp.endVBlank ∈ s.entry.ops) : s.scanline = 261 ∧ s.pos = 0 := by
  have hv : ∀ e ∈ visibleSched, SchedOp.endVBlank ∉ e.ops := by decide
  have hp : ∀ e ∈ preRenderSched.tail, SchedOp.endVBlank ∉ e.ops := by decide
  have hs : ∀ ops (e : Entry), e ∈ [(⟨0, ops⟩ : Entry)] → e.ops = ops := fun ops e h => by rw [List.mem_singleton.1 h]
  obtain ⟨e, he, ho⟩ := s.entry_ops h
  have hm := List.mem_of_getElem? he
  unfold sched at he hm
  split at hm
  · exact absurd ho (hv e hm)
  · split at hm
    · rw [hs _ e hm] at ho; exact absurd ho (by decide)
    · split at hm
      · rw [hs _ e hm] at ho; exact absurd ho (by decide)
      · split at hm
        · next hl =>
          refine ⟨hl, Nat.eq_zero_of_not_pos fun hpos => hp e ?_ ho⟩
          obtain ⟨k, hk⟩ := Nat.exists_eq_add_of_lt hpos
          rw [hl, hk] at he
          exact List.mem_of_getElem? (i := 0 + k) he
        · rw [hs _ e hm] at ho; exact absurd ho (by decide)

/-- A PPU step keeps the sprite flags unless it performs the first entry of scanline 261. -/
theorem State.ppuStep_spriteFlagsKept (s : State) (h : ¬(s.scanline = 261 ∧ s.pos = 0)) : SpriteFlagsKept s s.ppuStep := by
  have hops := s.performAll_spriteFlagsKept fun he => h (s.endVBlank_entry he)
  obtain ⟨cyc, off, line, pos, count, ha⟩ := State.advance_eq (s.entry.ops.foldl State.perform s)
  rw [State.ppuStep, ha]
  exact ⟨hops.hit, hops.overflow⟩

end Sys2Proof.Machine

namespace Sys2Proof.Proofs

open Sys2Proof.Machine Sys2Proof.Claims

/-- Settles O56, by the three kinds of a step: the CPU keeps the flags, power on is excepted, and a PPU step keeps them unless it
performs `endVBlank`. -/
theorem spriteFlagsAreSticky : Obligations.SpriteFlagsAreSticky := by
  intro s t h hcleared
  have hnot : ¬SpriteFlagsKept s t := by
    rintro ⟨hit, overflow⟩
    rcases hcleared with ⟨hs, ht⟩ | ⟨hs, ht⟩
    · rw [hit hs] at ht; cases ht
    · rw [overflow hs] at ht; cases ht
  rcases step_kinds h with hp | ⟨ha, -⟩ | ⟨ha, hd, rfl⟩
  · have hk := hp.spriteFlagsKept
    exact absurd ⟨hk.hit, hk.overflow⟩ hnot
  · exact .inl ha
  · by_cases hplace : s.scanline = 261 ∧ s.pos = 0
    · exact .inr ⟨ha, hd, hplace⟩
    · have hk := s.afterCall.ppuStep_spriteFlagsKept hplace
      exact absurd ⟨hk.hit, hk.overflow⟩ hnot

end Sys2Proof.Proofs
end

section
/-! SUPPORT. The invariant, in two halves: what the memories, the palette and the latch hold (kept by every operation of the CPU and
of the schedule, one lemma per operation) and the Scheduler's place (kept by moving on). -/

namespace Sys2Proof.Machine

/-- The half of the invariant about the PPU. -/
structure Ppu.Canonical (p : Ppu) : Prop where
  memories : p.MemoriesWf
  secCount : p.secCount ≤ 8
  sharedPalette : ∀ k, k % 4 = 0 → Table.read p.sprPal 0 k = 0
  rendering : p.renderingEnabled = (p.showBg || p.showSpr)

/-- The half of the invariant about what the machine holds. -/
structure State.Canonical (s : State) : Prop where
  ram : Memory.wf 0x800 s.ram = true
  ppu : s.ppu.Canonical
  cart : s.cart.MemoriesWf

/-- The invariant is its two halves. -/
theorem State.inv_iff (s : State) : s.Inv ↔ s.Canonical ∧ s.SchedulerWf :=
  ⟨fun h => ⟨⟨h.ram, ⟨h.ppu, h.secCount, h.sharedPalette, h.rendering⟩, h.cart⟩, h.sched⟩,
    fun ⟨h, hs⟩ => ⟨h.ram, h.ppu.memories, h.cart, hs, h.ppu.secCount, h.ppu.sharedPalette, h.ppu.rendering⟩⟩

/-- The invariant does not look at the scroll registers, the write toggle, `ctrl`, the status flags, `oamAddr` and the buffers. -/
theorem Ppu.Canonical.congr {p q : Ppu} (h : p.Canonical)
    (hq : q = { q with
      mask := p.mask, renderingEnabled := p.renderingEnabled, ciram := p.ciram, oam := p.oam, sec := p.sec
      secCount := p.secCount, bgPal := p.bgPal, sprPal := p.sprPal, bgBuf := p.bgBuf, layerBehind := p.layerBehind
      layerSpr0 := p.layerSpr0, layerFront := p.layerFront, frame := p.frame }) : q.Canonical := by
  obtain ⟨⟨hciram, hoam, hsec, hbg, hspr, hbuf, hb, hz, hf, hframe, hrows⟩, hcount, hshared, hrender⟩ := h
  rw [hq]
  exact ⟨⟨hciram, hoam, hsec, hbg, hspr, hbuf, hb, hz, hf, hframe, hrows⟩, hcount, hshared, hrender⟩

theorem State.Canonical.withPpu {s : State} (h : s.Canonical) {p : Ppu} (hp : p.Canonical) :
    State.Canonical { s with ppu := p } := ⟨h.ram, hp, h.cart⟩

theorem OnlyCart.canonical {s t : State} (h : OnlyCart s t) (hs : s.Canonical) : t.Canonical := by
  obtain ⟨c, rfl, hw⟩ := h
  exact ⟨hs.ram, hs.ppu, hw hs.cart⟩

/-- A bus read keeps the cartridge's memories canonical. -/
theorem State.rd_cart_wf (s : State) (a : Addr) (h : s.cart.MemoriesWf) : (s.rd a).2.cart.MemoriesWf := by
  have onlyCart : ∀ {t}, OnlyCart s t → t.cart.MemoriesWf := by
    rintro t ⟨c, rfl, hw⟩
    exact hw h
  have under := fun a => onlyCart (s.ppuReadUnder_onlyCart a)
  have read := fun a => onlyCart (s.ppuRead_onlyCart a)
  unfold State.rd
  split
  · exact h
  · split
    · unfold State.ppuRegRead
      split
      · exact h
      · exact h
      · unfold State.readData
        dsimp only
        split
        · exact under _
        · exact read _
      · exact h
    · split
      · unfold State.readIo
        split
        · exact h
        · split <;> exact h
      · revert h
        cases s.cart <;> exact id

theorem State.Canonical.rd {s : State} (h : s.Canonical) (a : Addr) : (s.rd a).2.Canonical where
  ram := by rw [(s.rd_frame a).core]; exact h.ram
  ppu := h.ppu.congr (by rw [(s.rd_frame a).ppu])
  cart := s.rd_cart_wf a h.cart

/-- A CIRAM index is below the size of CIRAM (20 R211). -/
theorem ciramIndex_lt (bank : Bool) (a : PpuAddr) : ciramIndex bank a < 0x800 := by
  unfold ciramIndex
  split <;> omega

/-- A palette write keeps the PPU canonical: it never reaches the storage of a shared cell (20 R216). -/
theorem Ppu.Canonical.paletteWrite {p : Ppu} (h : p.Canonical) (a : PpuAddr) (d : Byte) : (p.paletteWrite a d).Canonical := by
  have hm := h.memories
  unfold Ppu.paletteWrite
  split
  · exact { h with memories := { hm with bgPal := Table.wf_write _ _ _ (Nat.mod_lt _ (by decide)) hm.bgPal } }
  · next hb =>
    refine { h with
      memories := { hm with sprPal := Table.wf_write _ _ _ (Nat.mod_lt _ (by decide)) hm.sprPal }
      sharedPalette := fun k hk => ?_ }
    have hne : a.toNat % 16 ≠ k := by
      simp only [palIsBg, Bool.or_eq_true, decide_eq_true_eq, not_or] at hb
      omega
    exact (Table.read_write_other _ _ _ hne).trans (h.sharedPalette k hk)

/-- A PPU bus write keeps the machine canonical (20 R215). -/
theorem State.Canonical.ppuWrite {s : State} (h : s.Canonical) (a : PpuAddr) (d : Byte) : (s.ppuWrite a d).Canonical := by
  have hm := h.ppu.memories
  unfold State.ppuWrite
  split
  · exact h.withPpu (h.ppu.paletteWrite a d)
  · dsimp only
    split
    · refine ⟨h.ram, { h.ppu with memories := { hm with ciram := ?_ } }, ?_⟩
      · exact Table.wf_write _ _ _ (ciramIndex_lt _ _) hm.ciram
      · have hc := h.cart
        revert hc
        cases s.cart <;> exact id
    · refine ⟨h.ram, h.ppu, ?_⟩
      have hc := h.cart
      revert hc
      cases s.cart with
      | reference r => exact fun hc => ⟨hc.1, Table.wf_write _ _ _ (Nat.mod_lt _ (by decide)) hc.2⟩
      | external st => exact id

/-- A PPU register write keeps the machine canonical; a write of `mask` sets the latch with it (46 R605). -/
theorem State.Canonical.ppuRegWrite {s : State} (h : s.Canonical) (r : Nat) (d : Byte) : (s.ppuRegWrite r d).Canonical := by
  have hm := h.ppu.memories
  unfold State.ppuRegWrite
  split
  · exact h.withPpu (h.ppu.congr rfl)
  · exact h.withPpu ⟨⟨hm.ciram, hm.oam, hm.sec, hm.bgPal, hm.sprPal, hm.bgBuf, hm.layerBehind, hm.layerSpr0, hm.layerFront,
      hm.frame, hm.rows⟩, h.ppu.secCount, h.ppu.sharedPalette, rfl⟩
  · exact h.withPpu (h.ppu.congr rfl)
  · refine h.withPpu { h.ppu with memories := { hm with oam := ?_ } }
    exact Table.wf_write _ _ _ s.ppu.oamAddr.isLt hm.oam
  · unfold State.writeScroll
    split <;> exact h.withPpu (h.ppu.congr rfl)
  · unfold State.writeAddr
    split <;> exact h.withPpu (h.ppu.congr rfl)
  · have hw := h.ppuWrite (s.ppu.v.setWidth 14) d
    exact hw.withPpu (hw.ppu.congr rfl)
  · exact h

theorem State.Canonical.dma {s : State} (h : s.Canonical) (d : Byte) : (s.dma d).Canonical := by
  unfold State.dma
  generalize List.range 256 = l
  induction l generalizing s with
  | nil => exact h
  | cons i l ih => exact ih ((h.rd _).ppuRegWrite 4 _)

/-- A bus write keeps the machine canonical (20 R205). -/
theorem State.Canonical.wr {s : State} (h : s.Canonical) (a : Addr) (d : Byte) : (s.wr a d).Canonical := by
  unfold State.wr
  split
  · exact ⟨Table.wf_write _ _ _ (Nat.mod_lt _ (by decide)) h.ram, h.ppu, h.cart⟩
  · split
    · exact h.ppuRegWrite _ d
    · split
      · unfold State.writeIo
        split
        · exact h.dma d
        · split <;> exact ⟨h.ram, h.ppu, h.cart⟩
      · refine ⟨h.ram, h.ppu, ?_⟩
        have hc := h.cart
        revert hc
        cases s.cart <;> exact id

/-- The CPU keeps the machine canonical. -/
theorem CpuPath.canonical {s t : State} (hp : CpuPath s t) (h : s.Canonical) : t.Canonical := by
  induction hp with
  | refl => exact h
  | tail _ m ih =>
    cases m with
    | regs => exact ⟨ih.ram, ih.ppu, ih.cart⟩
    | tick => exact ⟨ih.ram, ih.ppu, ih.cart⟩
    | rd a => exact ih.rd a
    | wr a d => exact ih.wr a d

/-- Copying a sprite keeps the secondary OAM canonical: it has 8 entries of 4 bytes (10 R130). -/
theorem copySprite_wf (oam : Memory) (n : Nat) {count : Nat} (hc : count < 8) (sec : Table Byte)
    (h : sec.wf 0xFF#8 32 = true) : (copySprite oam n count sec).wf 0xFF#8 32 = true := by
  have key : ∀ l : List Nat, (∀ j ∈ l, j < 4) → ∀ t : Table Byte, t.wf 0xFF#8 32 = true →
      (l.foldl (fun t j => Table.write t 0xFF#8 (4 * count + j) (Table.read oam 0 (4 * n + j))) t).wf 0xFF#8 32 = true := by
    intro l
    induction l with
    | nil => exact fun _ t ht => ht
    | cons j l ih =>
      intro hl t ht
      have hj := hl j List.mem_cons_self
      exact ih (fun i hi => hl i (List.mem_cons_of_mem j hi)) _ (Table.wf_write _ _ _ (by omega) ht)
  exact key _ (fun j hj => List.mem_range.1 hj) _ h

/-- The evaluation finds at most 8 sprites and keeps the secondary OAM canonical (48 R673). -/
theorem evalPhase1_wf (oam : Memory) (line h k : Nat) (e : EvalState) (hc : e.secCount ≤ 8)
    (hw : e.sec.wf 0xFF#8 32 = true) :
    (evalPhase1 oam line h k e).secCount ≤ 8 ∧ (evalPhase1 oam line h k e).sec.wf 0xFF#8 32 = true := by
  induction k generalizing e with
  | zero => exact ⟨hc, hw⟩
  | succ k ih =>
    unfold evalPhase1
    split
    · next hlt =>
      dsimp only
      split
      · exact ih _ hlt.2 (copySprite_wf oam _ hlt.2 _ hw)
      · exact ih _ hc hw
    · exact ⟨hc, hw⟩

/-- Sprite evaluation keeps the machine canonical (48 R673). -/
theorem State.Canonical.evaluateSprites {s : State} (h : s.Canonical) (line : Nat) : (s.evaluateSprites line).Canonical := by
  have hm := h.ppu.memories
  unfold State.evaluateSprites
  split
  · obtain ⟨hc, hw⟩ := evalPhase1_wf s.ppu.oam line s.ppu.spriteHeight 64
      { n := 0, sec := s.ppu.sec, secCount := s.ppu.secCount, sprite0InSec := s.ppu.sprite0InSec } h.ppu.secCount hm.sec
    exact h.withPpu { h.ppu with memories := { hm with sec := hw }, secCount := hc }
  · exact h

/-- Composing a pixel inside the picture keeps the machine canonical (10 R134). -/
theorem State.Canonical.renderPixel {s : State} (h : s.Canonical) {line k i : Nat} (hl : line < 240) (hp : 8 * k + i < 256) :
    (s.renderPixel line k i).Canonical := by
  have hm := h.ppu.memories
  refine h.withPpu { h.ppu with memories := { hm with frame := ?_, rows := fun row => ?_ } }
  · exact Table.wf_write _ _ _ hl hm.frame
  · have hrow := Table.wf_write (0#9) (s.ppu.outputPixel s.params.tvMode (s.ppu.composedColour (s.ppu.bgPixel (8 * k + i) i)
      (s.ppu.sprPixel s.ppu.layerBehind (8 * k + i)) (s.ppu.sprPixel s.ppu.layerSpr0 (8 * k + i))
      (s.ppu.sprPixel s.ppu.layerFront (8 * k + i)))) _ hp (hm.rows line)
    dsimp only [Picture.setPixel]
    rw [Table.read_write]
    split
    · exact hrow
    · exact hm.rows row

/-- Composing a tile keeps the machine canonical (48 R684). -/
theorem State.Canonical.renderTile {s : State} (h : s.Canonical) {line k : Nat} (hl : line < 240) (hk : k < 32) :
    (s.renderTile line k).Canonical := by
  have key : ∀ l : List Nat, (∀ i ∈ l, i < 8) → ∀ t : State, t.Canonical →
      (l.foldl (fun s i => s.renderPixel line k i) t).Canonical := by
    intro l
    induction l with
    | nil => exact fun _ t ht => ht
    | cons i l ih =>
      intro hi t ht
      have := hi i List.mem_cons_self
      exact ih (fun j hj => hi j (List.mem_cons_of_mem i hj)) _ (ht.renderPixel hl (by omega))
  exact key _ (fun i hi => List.mem_range.1 hi) s h

/-- The tile step an operation composes, if it composes one. -/
def SchedOp.tile : SchedOp → Option Nat
  | .renderTile k => some k
  | _ => none

/-- The schedules compose tiles 0 to 31 of the visible scanlines (49 R710, R715). -/
theorem State.entry_tile (s : State) {op : SchedOp} (h : op ∈ s.entry.ops) : ∀ k ∈ op.tile, s.scanline < 240 ∧ k < 32 := by
  have hv : ∀ e ∈ visibleSched, ∀ op ∈ e.ops, ∀ k ∈ op.tile, k < 32 := by decide
  have hp : ∀ e ∈ preRenderSched, ∀ op ∈ e.ops, op.tile = none := by decide
  obtain ⟨e, he, ho⟩ := s.entry_ops h
  have hm := List.mem_of_getElem? he
  have none_tile : op.tile = none → ∀ k ∈ op.tile, s.scanline < 240 ∧ k < 32 := fun hn k hk => by
    rw [hn] at hk
    cases hk
  have single : ∀ ops, e ∈ [(⟨0, ops⟩ : Entry)] → (∀ o ∈ ops, SchedOp.tile o = none) → op.tile = none := by
    intro ops hm' hops
    rw [List.mem_singleton.1 hm'] at ho
    exact hops op ho
  unfold sched at hm
  split at hm
  · next hl => exact fun k hk => ⟨hl, hv e hm op ho k hk⟩
  · split at hm
    · exact none_tile (single _ hm (by decide))
    · split at hm
      · exact none_tile (single _ hm (by decide))
      · split at hm
        · exact none_tile (hp e hm op ho)
        · exact none_tile (single _ hm (by decide))

/-- The tile buffer after a shift is canonical (47 R650). -/
theorem shiftIn_wf (buf : Table Pixel) (new : Nat → Pixel) : (shiftIn buf new).wf 0#4 16 = true := Table.wf_tabulate _ _ _

/-- Every scheduled operation keeps the machine canonical, a composed tile being inside the picture. -/
theorem State.Canonical.perform {s : State} (h : s.Canonical) {op : SchedOp}
    (hop : ∀ k ∈ op.tile, s.scanline < 240 ∧ k < 32) : (s.perform op).Canonical := by
  have hm := h.ppu.memories
  have scroll : ∀ f, (s.scroll f).Canonical := fun f => by
    obtain ⟨v, hv⟩ := s.scroll_eq f
    rw [hv]
    exact h.withPpu (h.ppu.congr rfl)
  cases op with
  | clearSecondaryOAM =>
    exact h.withPpu { h.ppu with memories := { hm with sec := Table.wf_nil _ _ }, secCount := Nat.zero_le 8 }
  | evaluateSprites => exact h.evaluateSprites _
  | clearSpriteLayers =>
    exact h.withPpu { h.ppu with memories := { hm with
      layerBehind := Table.wf_nil _ _, layerSpr0 := Table.wf_nil _ _, layerFront := Table.wf_nil _ _ } }
  | fetchSprite i =>
    obtain ⟨c, b, z, f, he, hc, hb, hz, hf⟩ := s.fetchSprite_eq i s.scanline
    rw [State.perform, he]
    exact ⟨h.ram, { h.ppu with memories := { hm with
      layerBehind := hb hm.layerBehind, layerSpr0 := hz hm.layerSpr0, layerFront := hf hm.layerFront } }, hc h.cart⟩
  | renderTile k =>
    obtain ⟨hl, hk⟩ := hop k rfl
    exact h.renderTile hl hk
  | fetchTile =>
    obtain ⟨c, v, new, he, hc⟩ := s.fetchTile_eq
    rw [State.perform, he]
    exact ⟨h.ram, { h.ppu with memories := { hm with bgBuf := shiftIn_wf _ _ } }, hc h.cart⟩
  | incrementY => exact scroll fun v _ => incY v
  | resetX => exact scroll copyX
  | resetY => exact scroll copyY
  | frameDone => exact ⟨h.ram, h.ppu, h.cart⟩
  | doVBlank => exact s.doVBlank_path.canonical (h.withPpu (h.ppu.congr rfl))
  | endVBlank => exact h.withPpu { h.ppu with rendering := rfl, memories := { hm with } }

theorem State.Canonical.performAll {s : State} (h : s.Canonical) {ops : List SchedOp}
    (hops : ∀ op ∈ ops, ∀ k ∈ op.tile, s.scanline < 240 ∧ k < 32) : (ops.foldl State.perform s).Canonical := by
  induction ops generalizing s with
  | nil => exact h
  | cons op ops ih =>
    refine ih (h.perform (hops op List.mem_cons_self)) fun o ho => ?_
    rw [(s.perform_place op).1]
    exact hops o (List.mem_cons_of_mem op ho)

/-- Every schedule has an entry. -/
theorem sched_length_pos (line : Nat) : 0 < (sched line).length := by
  unfold sched
  split
  · decide
  · split
    · decide
    · split
      · decide
      · split <;> decide

/-- Moving on keeps the Scheduler's place legal: 178683 half-dots of a frame are 29780 cycles and 3 half-dots, 178686 are 29781
cycles (49 R705, R706, R730, R731). -/
theorem State.SchedulerWf.advance {s : State} (h : s.SchedulerWf) : s.advance.SchedulerWf := by
  obtain ⟨hline, hpos, hoff⟩ := h
  by_cases h : s.pos + 1 < (sched s.scanline).length
  · rw [State.advance_entry h]
    exact ⟨hline, h, hoff⟩
  · by_cases hl : s.scanline = 261
    · rw [State.advance_frame h hl]
      refine ⟨Nat.zero_lt_succ 261, sched_length_pos 0, ?_⟩
      have h6 : line6 s.scanline = 681 := if_pos hl
      dsimp only
      omega
    · rw [State.advance_line h hl]
      refine ⟨by dsimp only; omega, sched_length_pos _, ?_⟩
      have h6 : line6 s.scanline = 682 := if_neg hl
      dsimp only
      omega

/-- A PPU step keeps the invariant. -/
theorem State.Inv.ppuStep {s : State} (h : s.Inv) : s.ppuStep.Inv := by
  obtain ⟨hc, hs⟩ := s.inv_iff.1 h
  obtain ⟨hline, hpos, hoff⟩ := s.performAll_place s.entry.ops
  have hc' := hc.performAll fun op ho => s.entry_tile ho
  have hs' : (s.entry.ops.foldl State.perform s).SchedulerWf := by
    refine ⟨?_, ?_, ?_⟩
    · rw [hline]; exact hs.scanline
    · rw [hpos, hline]; exact hs.pos
    · rw [hoff, hline]; exact hs.offset
  refine (State.inv_iff _).2 ⟨?_, hs'.advance⟩
  obtain ⟨cyc, off, line, pos, count, ha⟩ := State.advance_eq (s.entry.ops.foldl State.perform s)
  rw [State.ppuStep, ha]
  exact ⟨hc'.ram, hc'.ppu, hc'.cart⟩

/-- The CPU keeps the invariant: it keeps the machine canonical and leaves the Scheduler alone. -/
theorem State.Inv.cpuPath {s t : State} (h : s.Inv) (hp : CpuPath s t) : t.Inv := by
  obtain ⟨hc, hs⟩ := s.inv_iff.1 h
  refine t.inv_iff.2 ⟨hp.canonical hc, ?_⟩
  rw [hp.frame.core]
  exact ⟨hs.scanline, hs.pos, hs.offset⟩

/-- The PPU at power on is canonical (10 R151). -/
theorem Ppu.powerOn_canonical (q : Params) : (Ppu.powerOn q).Canonical where
  memories :=
    { ciram := Table.wf_clip _ _ _
      oam := Table.wf_clip _ _ _
      sec := Table.wf_nil _ _
      bgPal := by dsimp only [Ppu.powerOn]; exact Table.wf_tabulate _ _ _
      sprPal := by dsimp only [Ppu.powerOn]; exact Table.wf_tabulate _ _ _
      bgBuf := Table.wf_nil _ _
      layerBehind := Table.wf_nil _ _
      layerSpr0 := Table.wf_nil _ _
      layerFront := Table.wf_nil _ _
      frame := Table.wf_nil _ _
      rows := fun _ => Table.wf_nil _ _ }
  secCount := Nat.zero_le 8
  sharedPalette k hk := by
    dsimp only [Ppu.powerOn]
    rw [Table.read_tabulate, if_pos hk, ite_self]
  rendering := by simp [Ppu.powerOn, Ppu.showBg, Ppu.showSpr]

/-- Power on establishes the invariant if the cartridge's memories are canonical (10 R150 to R152). -/
theorem State.powerOn_inv (q : Params) {c : Cart} (h : c.MemoriesWf) (apu : Apu) (p0 p1 : Pad) :
    (State.powerOn q c apu p0 p1).Inv := by
  refine (State.inv_iff _).2 ⟨⟨Table.wf_clip _ _ _, Ppu.powerOn_canonical q, ?_⟩, Nat.zero_lt_succ 261,
    sched_length_pos 0, .inl rfl⟩
  revert h
  cases c <;> exact id

end Sys2Proof.Machine
end

section
/-! Settles O51, O52 and O53. -/

namespace Sys2Proof.Proofs

open Sys2Proof.Machine Sys2Proof.Claims

/-- Settles O53, by the three kinds of a step: the CPU, power on and the PPU each keep the invariant. -/
theorem everyStepKeepsInv : Obligations.EveryStepKeepsInv := by
  intro s t h hstep
  have h' : s.afterCall.Inv := { h with sched := ⟨h.sched.scanline, h.sched.pos, h.sched.offset⟩ }
  rcases step_kinds hstep with hp | ⟨-, rfl⟩ | ⟨-, -, rfl⟩
  · exact h'.cpuPath hp
  · obtain ⟨hc, hs⟩ := (State.inv_iff _).1 (State.powerOn_inv s.params h.cart s.apu s.pad0 s.pad1)
    exact (State.inv_iff _).2 ⟨⟨hc.ram, hc.ppu, hc.cart⟩, hs.scanline, hs.pos, hs.offset⟩
  · exact h'.ppuStep

/-- Settles O52: the state after reset is a power on with a blank cartridge. -/
theorem invHoldsAtReset : Obligations.InvHoldsAtReset :=
  State.powerOn_inv Params.default (c := Cart.blank) ⟨Table.wf_nil _ _, Table.wf_nil _ _⟩ .silent .absent .absent

/-- The palette at power on: 6 bits of the byte of the cell an address selects, a shared cell's being the lower one's (20 R216). -/
theorem powerOn_paletteRead (q : Params) (a : PpuAddr) :
    ((Ppu.powerOn q).paletteRead a).toNat = (Table.read q.paletteInit 0 (paletteCell a)).toNat % 64 := by
  have hlt : a.toNat % 16 < 16 := Nat.mod_lt _ (by decide)
  have six : ∀ b : Byte, (b.setWidth 6).toNat = b.toNat % 64 := fun b => BitVec.toNat_setWidth 6 b
  unfold Ppu.paletteRead
  split
  · next hb =>
    simp only [palIsBg, Bool.or_eq_true, decide_eq_true_eq] at hb
    have hcell : paletteCell a = a.toNat % 16 := by unfold paletteCell; split <;> omega
    dsimp only [Ppu.powerOn]
    rw [Table.read_tabulate, if_pos hlt, six, hcell]
  · next hb =>
    simp only [palIsBg, Bool.or_eq_true, decide_eq_true_eq, not_or] at hb
    have hcell : paletteCell a = 16 + a.toNat % 16 := by unfold paletteCell; split <;> omega
    dsimp only [Ppu.powerOn]
    rw [Table.read_tabulate, if_pos hlt, if_neg (by omega), six, hcell]

/-- `P` at power on (10 R150). -/
theorem powerOn_statusByte : statusByte { n := false, v := false, d := false, i := true, z := false, c := false } = 0x34#8 := by
  decide

/-- Settles O51: each memory reads as the parameters say, by what clipping and tabulating keep; the rest is as written. -/
theorem powerOnValues : Obligations.PowerOnValues := by
  intro q c apu p0 p1
  refine ⟨⟨powerOn_statusByte, rfl, word_eq_le16 _ _⟩, ⟨rfl, rfl, rfl, rfl, rfl, rfl, rfl, rfl⟩,
    ⟨rfl, rfl, rfl, rfl, rfl, rfl, rfl, rfl, rfl, rfl, rfl, rfl, rfl, rfl⟩, fun k hk => ⟨?_, ?_⟩, fun k hk => ?_,
    powerOn_paletteRead q, fun k => ⟨rfl, rfl, rfl, rfl, rfl, fun row => rfl⟩, rfl, rfl, rfl, rfl, rfl⟩
  · exact (Table.read_clip ..).trans (if_pos hk)
  · exact (Table.read_clip ..).trans (if_pos hk)
  · exact (Table.read_clip ..).trans (if_pos hk)

end Sys2Proof.Proofs
end

section
/-! SUPPORT. Two runs of an instruction from states that differ in something no instruction with a shape looks at: `Blind f` says so of
a change `f` of the state, and every shape then commutes with `f`. -/

namespace Sys2Proof.Machine

open Sys2Proof.Claims

/-- `f` changes nothing that the buses, the operand forms and the operations of the shapes look at, and they keep what it changed. -/
structure Blind (f : State → State) : Prop where
  rd : ∀ s a, (f s).rd a = ((s.rd a).1, f (s.rd a).2)
  wr : ∀ s a d, (f s).wr a d = f (s.wr a d)
  a : ∀ s, (f s).a = s.a
  x : ∀ s, (f s).x = s.x
  y : ∀ s, (f s).y = s.y
  sp : ∀ s, (f s).sp = s.sp
  pc : ∀ s, (f s).pc = s.pc
  cycle : ∀ s, (f s).cycle = s.cycle
  setA : ∀ s v, { f s with a := v } = f { s with a := v }
  setSp : ∀ s v, { f s with sp := v } = f { s with sp := v }
  setPc : ∀ s v, { f s with pc := v } = f { s with pc := v }
  charge : ∀ s n, (f s).charge n = f (s.charge n)
  readOp : ∀ (op : ReadOp) m s, op.run m (f s) = f (op.run m s)
  modifyByte : ∀ (op : ModifyOp) old s, (op.run old (f s).p).1 = (op.run old s.p).1
  modifyFlags : ∀ (op : ModifyOp) old s, { f s with p := (op.run old (f s).p).2 } = f { s with p := (op.run old s.p).2 }
  taken : ∀ (op : BranchOp) s, op.taken (f s).p = op.taken s.p

namespace Blind

variable {f : State → State} (h : Blind f) (s : State)

include h

theorem push (b : Byte) : (f s).push b = f (s.push b) := by
  simp only [State.push, h.sp, h.wr, h.setSp]

theorem pull : (f s).pull = (s.pull.1, f s.pull.2) := by
  simp only [State.pull, h.sp, h.setSp, h.rd]

theorem push16 (w : Addr) : (f s).push16 w = f (s.push16 w) := by
  simp only [State.push16, h.push]

theorem pull16 : (f s).pull16 = (s.pull16.1, f s.pull16.2) := by
  simp only [State.pull16, h.pull]

theorem jumpVector (vec : Addr) : (f s).jumpVector vec = f (s.jumpVector vec) := by
  simp only [State.jumpVector, State.rd16, h.rd, h.setPc]

theorem readPointer (z : Byte) : (f s).readPointer z = ((s.readPointer z).1, f (s.readPointer z).2) := by
  simp only [State.readPointer, h.rd]

theorem resolve (m : Ea) : (f s).resolve m = ⟨(s.resolve m).ea, (s.resolve m).crossed, f (s.resolve m).st⟩ := by
  cases m with
  | ind a => simp only [State.resolve, h.rd]
  | indx z => simp only [State.resolve, h.x, h.readPointer]
  | indy z => simp only [State.resolve, h.y, h.readPointer]
  | _ => simp only [State.resolve, h.x, h.y]

theorem dmaStall (a : Addr) : (f s).dmaStall a = s.dmaStall a := by
  simp only [State.dmaStall, h.cycle]

theorem storeReg (op : StoreOp) : op.reg (f s) = op.reg s := by
  cases op with
  | sta => exact h.a s
  | stx => exact h.x s
  | sty => exact h.y s

/-- AN INSTRUCTION WITH A SHAPE completes in both states, and the results differ by `f` again. -/
theorem run (sh : Shape) : ∃ t, sh.run s = .next t ∧ sh.run (f s) = .next (f t) := by
  cases sh with
  | readImm op v => exact ⟨_, rfl, by simp only [Shape.run, readImm, h.readOp, h.charge]⟩
  | readMem op m => exact ⟨_, rfl, by simp only [Shape.run, readMem, h.resolve, h.rd, h.readOp, h.charge]⟩
  | store op m =>
    exact ⟨_, rfl, by simp only [Shape.run, storeMem, h.resolve, h.storeReg, h.wr, h.dmaStall, h.charge]⟩
  | modifyMem op m =>
    refine ⟨_, rfl, ?_⟩
    simp only [Shape.run, modifyMem, h.resolve, h.rd, h.modifyByte, h.modifyFlags, h.wr, h.dmaStall, h.charge]
  | modifyAcc op =>
    refine ⟨_, rfl, ?_⟩
    have hm := h.setA { s with p := (op.run s.a s.p).2 } (op.run s.a s.p).1
    rw [← h.modifyFlags] at hm
    simp only [Shape.run, modifyAcc, h.a, h.modifyByte, ← h.charge]
    rw [← hm]
  | jump m => exact ⟨_, rfl, by simp only [Shape.run, jump, h.resolve, h.setPc, h.charge]⟩
  | branch op o =>
    simp only [Shape.run, branch, h.pc, h.taken, h.setPc, h.charge]
    split
    · exact ⟨_, rfl, rfl⟩
    · exact ⟨_, rfl, rfl⟩

end Blind

/-- `f` is blind, and the CPU does not see what it changes at all: the flags and the parameters are kept too. -/
structure CpuBlind (f : State → State) : Prop extends Blind f where
  p : ∀ s, (f s).p = s.p
  params : ∀ s, (f s).params = s.params
  setP : ∀ s q, { f s with p := q } = f { s with p := q }

namespace CpuBlind

variable {f : State → State} (h : CpuBlind f) (s : State)

include h

theorem entrySetsI : (f s).entrySetsI = f s.entrySetsI := by
  have hq : (f s).params.intEntrySetsI = s.params.intEntrySetsI := by rw [h.params]
  have hset : { f s with p := { (f s).p with i := true } } = f { s with p := { s.p with i := true } } := by
    rw [h.p, h.setP]
  unfold State.entrySetsI
  rw [hset, hq]
  exact (apply_ite f _ _ _).symm

theorem enter (vec : Addr) (pushPC pushP : Bool) : (f s).enter vec pushPC pushP = f (s.enter vec pushPC pushP) := by
  cases pushPC <;> cases pushP <;>
    simp only [State.enter, h.pc, h.p, h.toBlind.push16, h.toBlind.push, h.entrySetsI, h.toBlind.jumpVector, h.charge,
      Bool.false_eq_true, if_true, if_false]

theorem doIRQ : (f s).doIRQ = f s.doIRQ := by
  unfold State.doIRQ
  rw [h.p, h.enter]
  split <;> rfl

theorem doReset : (f s).doReset = f s.doReset := by
  rw [State.doReset, h.params, h.enter, State.doReset]

theorem softwareEntry : (f s).softwareEntry = f s.softwareEntry := by
  have hset := fun u : State => h.setP u { u.p with i := true }
  unfold State.softwareEntry
  dsimp only
  rw [h.pc, h.p s, h.toBlind.push16, h.toBlind.push, ← h.toBlind.jumpVector, ← hset, h.p]

theorem returnFromInterrupt : (f s).returnFromInterrupt = f s.returnFromInterrupt := by
  simp only [State.returnFromInterrupt, h.toBlind.pull, h.setP, h.toBlind.pull16, h.setPc]

theorem fetchByte : (f s).fetchByte = (s.fetchByte.1, f s.fetchByte.2) := by
  simp only [State.fetchByte, h.pc, h.rd, h.setPc]

theorem fetchBytes (n : Nat) : (f s).fetchBytes n = ((s.fetchBytes n).1, f (s.fetchBytes n).2) := by
  induction n generalizing s with
  | zero => rfl
  | succ n ih => simp only [State.fetchBytes, h.fetchByte, ih]

theorem fetch : (f s).fetch = (s.fetch.1, f s.fetch.2) := by
  simp only [State.fetch, h.fetchByte, h.fetchBytes]

end CpuBlind

end Sys2Proof.Machine
end

section
/-! Settles O14: two runs that differ in D, and V as signed overflow. -/

namespace Sys2Proof.Machine

open Sys2Proof.Claims

theorem State.rd_p (s : State) (a : Addr) : (s.rd a).2.p = s.p := by rw [(s.rd_frame a).core]

theorem State.wr_p (s : State) (a : Addr) (d : Byte) : (s.wr a d).p = s.p := by rw [(s.wr_frame a d).core]

/-- Neither the buses nor any instruction with a shape looks at D (42 R450, D8). -/
theorem blind_withD (b : Bool) : Blind (withD · b) where
  rd s a := by
    have h := s.rd_withP { s.p with d := b } a
    simpa only [withD, s.rd_p a] using h
  wr s a d := by
    have h := s.wr_withP { s.p with d := b } a d
    simpa only [withD, s.wr_p a d] using h
  a _ := rfl
  x _ := rfl
  y _ := rfl
  sp _ := rfl
  pc _ := rfl
  cycle _ := rfl
  setA _ _ := rfl
  setSp _ _ := rfl
  setPc _ _ := rfl
  charge _ _ := rfl
  readOp op _ _ := by cases op <;> rfl
  modifyByte op _ _ := by cases op <;> rfl
  modifyFlags op _ _ := by cases op <;> rfl
  taken op _ := by cases op <;> rfl

/-- D IS INERT: an instruction that pushes no copy of `P` completes in both states, and the results differ at most in D. -/
theorem exec_withD {i : Instr} (hphp : i ≠ .php) (hbrk : i ≠ .brk) (hill : ∀ op, i ≠ .illegal op) (s : State) (b : Bool) :
    ∃ t b', exec i s = .next t ∧ exec i (withD s b) = .next (withD t b') := by
  have hb := blind_withD b
  cases hs : shapeOf i with
  | some sh =>
    obtain ⟨t, ht, hu⟩ := hb.run s sh
    exact ⟨t, b, (exec_of_shape hs s).trans ht, (exec_of_shape hs _).trans hu⟩
  | none =>
    cases i with
    | tax | tay | txa | tya | tsx | txs | inx | iny | dex | dey | clc | sec | cli | sei | clv | nop =>
      exact ⟨_, b, rfl, rfl⟩
    | cld => exact ⟨_, false, rfl, rfl⟩
    | sed => exact ⟨_, true, rfl, rfl⟩
    | pha =>
      refine ⟨_, b, rfl, ?_⟩
      have ha : (withD s b).a = s.a := rfl
      simp only [exec, execPha, implied, ha, hb.push s]
      rfl
    | pla =>
      refine ⟨_, b, rfl, ?_⟩
      simp only [exec, execPla, implied, hb.pull s]
      rfl
    | plp =>
      refine ⟨_, (Status.ofByte s.pull.1).d, rfl, ?_⟩
      simp only [exec, execPlp, implied, hb.pull s]
      rfl
    | jsr a =>
      refine ⟨_, b, rfl, ?_⟩
      have hpc : (withD s b).pc = s.pc := rfl
      simp only [exec, execJsr, implied, hpc, hb.push16 s]
      rfl
    | rts =>
      refine ⟨_, b, rfl, ?_⟩
      simp only [exec, execRts, implied, hb.pull16 s]
      rfl
    | rti =>
      refine ⟨_, (Status.ofByte s.pull.1).d, rfl, ?_⟩
      simp only [exec, execRti, implied, State.returnFromInterrupt_eq, State.pull_eq]
      rfl
    | php => exact absurd rfl hphp
    | brk => exact absurd rfl hbrk
    | illegal op => exact absurd rfl (hill op)
    | _ => cases hs

/-- Bit 7 of a byte is its sign. -/
theorem getLsbD_seven (b : Byte) : b.getLsbD 7 = decide (128 ≤ b.toNat) := by
  have := b.msb_eq_decide
  rw [BitVec.msb_eq_getLsbD_last] at this
  exact this

/-- V says that both operands have a sign other than the result's (42 R451). -/
theorem overflowBit_iff (a m r : Byte) : ((m ^^^ r) &&& (a ^^^ r)).getLsbD 7 = true ↔
    ¬(128 ≤ m.toNat ↔ 128 ≤ r.toNat) ∧ ¬(128 ≤ a.toNat ↔ 128 ≤ r.toNat) := by
  rw [BitVec.getLsbD_and, BitVec.getLsbD_xor, BitVec.getLsbD_xor, getLsbD_seven, getLsbD_seven, getLsbD_seven]
  simp only [Bool.and_eq_true, bne_iff_ne, ne_eq, decide_eq_decide]

/-- A byte as a signed number, by its sign. -/
theorem toInt_cases (b : Byte) :
    (b.toNat < 128 ∧ b.toInt = b.toNat) ∨ (128 ≤ b.toNat ∧ b.toInt = (b.toNat : Int) - 256) := by
  rw [BitVec.toInt_eq_toNat_cond]
  split
  · exact .inl ⟨by omega, rfl⟩
  · exact .inr ⟨by omega, rfl⟩

/-- The overflow flag of a sum with carry is signed overflow of the exact sum (42 R451). -/
theorem addc_overflow_iff (a m : Byte) (c : Bool) :
    ((m ^^^ aluByte (addRaw a m c)) &&& (a ^^^ aluByte (addRaw a m c))).getLsbD 7 = true ↔
      a.toInt + m.toInt + (c.toNat : Int) < -128 ∨ 127 < a.toInt + m.toInt + (c.toNat : Int) := by
  have hr : (aluByte (addRaw a m c)).toNat = (a.toNat + m.toNat + c.toNat) % 256 := BitVec.toNat_ofNat ..
  have ha := a.isLt
  have hm := m.isLt
  have hc : c.toNat ≤ 1 := c.toNat_le
  rw [overflowBit_iff, hr]
  rcases toInt_cases a with ⟨hsa, hia⟩ | ⟨hsa, hia⟩ <;> rcases toInt_cases m with ⟨hsm, him⟩ | ⟨hsm, him⟩ <;>
    rw [hia, him] <;> omega

/-- The complement of a byte as a signed number. -/
theorem toInt_complement (m : Byte) : (0xFF#8 - m).toInt = -1 - m.toInt := by
  have hm := m.isLt
  have hn : (0xFF#8 - m).toNat = 255 - m.toNat := by
    rw [BitVec.toNat_sub_of_le (BitVec.le_def.2 (by rw [BitVec.toNat_ofNat]; omega)), BitVec.toNat_ofNat]
  rcases toInt_cases m with ⟨hs, hi⟩ | ⟨hs, hi⟩ <;>
    rcases toInt_cases (0xFF#8 - m) with ⟨hs', hi'⟩ | ⟨hs', hi'⟩ <;> omega

end Sys2Proof.Machine

namespace Sys2Proof.Proofs

open Sys2Proof.Machine Sys2Proof.Claims

/-- Settles O14: every shape is blind for D, and V of the complement's sum is V of the difference. -/
theorem decimalFlagIsInertAndVIsSignedOverflow : Obligations.DecimalFlagIsInertAndVIsSignedOverflow := by
  refine ⟨fun i s b hphp hbrk hill => exec_withD hphp hbrk hill s b, fun s m => ⟨addc_overflow_iff s.a m s.p.c, ?_⟩⟩
  have h := addc_overflow_iff s.a (0xFF#8 - m) s.p.c
  rw [toInt_complement] at h
  refine h.trans ?_
  omega

end Sys2Proof.Proofs
end

section
/-! Settles O58: two runs that differ in the outputs. The buses, the instructions and the entries commute with a change of the outputs;
a scheduled operation may change the outputs further, and nothing else. -/

namespace Sys2Proof.Machine

open Sys2Proof.Claims

section

variable (s : State) (frame last : Picture) (done count : Nat)

/-- A PPU bus read under the palette neither sees nor changes the outputs (20 R214). -/
theorem State.ppuReadUnder_withOutputs (a : PpuAddr) : (withOutputs s frame last done count).ppuReadUnder a =
    ((s.ppuReadUnder a).1, withOutputs (s.ppuReadUnder a).2 frame last done count) := by
  unfold State.ppuReadUnder
  dsimp only [withOutputs]
  split <;> rfl

/-- A PPU bus read neither sees nor changes the outputs (20 R214). -/
theorem State.ppuRead_withOutputs (a : PpuAddr) : (withOutputs s frame last done count).ppuRead a =
    ((s.ppuRead a).1, withOutputs (s.ppuRead a).2 frame last done count) := by
  unfold State.ppuRead
  split
  · rfl
  · exact s.ppuReadUnder_withOutputs ..

/-- Reading $2007 neither sees nor changes the outputs (46 R612). -/
theorem State.readData_withOutputs : (withOutputs s frame last done count).readData =
    (s.readData.1, withOutputs s.readData.2 frame last done count) := by
  have hv : (withOutputs s frame last done count).ppu.v = s.ppu.v := rfl
  unfold State.readData
  simp only [State.ppuReadUnder_withOutputs, State.ppuRead_withOutputs, hv]
  by_cases h : 0x3F00 ≤ (s.ppu.v.setWidth 14 : PpuAddr).toNat
  · rw [if_pos h, if_pos h]
    rfl
  · rw [if_neg h, if_neg h]
    rfl

/-- A CPU bus read neither sees nor changes the outputs (20 R204). -/
theorem State.rd_withOutputs (a : Addr) : (withOutputs s frame last done count).rd a =
    ((s.rd a).1, withOutputs (s.rd a).2 frame last done count) := by
  unfold State.rd
  split
  · rfl
  · split
    · unfold State.ppuRegRead
      split
      · rfl
      · rfl
      · exact s.readData_withOutputs ..
      · rfl
    · split
      · unfold State.readIo
        split
        · rfl
        · split <;> rfl
      · rfl

/-- A palette write neither sees nor changes the picture (20 R216). -/
theorem Ppu.paletteWrite_withFrame (p : Ppu) (frame : Picture) (a : PpuAddr) (d : Byte) :
    ({ p with frame := frame } : Ppu).paletteWrite a d = { p.paletteWrite a d with frame := frame } := by
  unfold Ppu.paletteWrite
  cases palIsBg a <;> rfl

/-- A PPU bus write neither sees nor changes the outputs (20 R215). -/
theorem State.ppuWrite_withOutputs (a : PpuAddr) (d : Byte) : (withOutputs s frame last done count).ppuWrite a d =
    withOutputs (s.ppuWrite a d) frame last done count := by
  unfold State.ppuWrite
  split
  · rw [withOutputs, s.ppu.paletteWrite_withFrame]
    rfl
  · symm
    exact apply_ite (withOutputs · frame last done count) _ _ _

/-- A PPU register write neither sees nor changes the outputs (46 R602). -/
theorem State.ppuRegWrite_withOutputs (r : Nat) (d : Byte) : (withOutputs s frame last done count).ppuRegWrite r d =
    withOutputs (s.ppuRegWrite r d) frame last done count := by
  unfold State.ppuRegWrite
  split
  · rfl
  · rfl
  · rfl
  · rfl
  · symm
    exact apply_ite (withOutputs · frame last done count) _ _ _
  · symm
    exact apply_ite (withOutputs · frame last done count) _ _ _
  · exact congrArg State.advanceV (s.ppuWrite_withOutputs ..)
  · rfl

theorem State.dma_withOutputs (d : Byte) : (withOutputs s frame last done count).dma d =
    withOutputs (s.dma d) frame last done count := by
  unfold State.dma
  generalize List.range 256 = l
  induction l generalizing s with
  | nil => rfl
  | cons i l ih =>
    rw [List.foldl_cons, List.foldl_cons, State.dmaByte, State.rd_withOutputs, State.ppuRegWrite_withOutputs, ih]
    rfl

/-- A CPU bus write neither sees nor changes the outputs (20 R205). -/
theorem State.wr_withOutputs (a : Addr) (d : Byte) : (withOutputs s frame last done count).wr a d =
    withOutputs (s.wr a d) frame last done count := by
  unfold State.wr
  split
  · rfl
  · split
    · exact s.ppuRegWrite_withOutputs ..
    · split
      · unfold State.writeIo
        split
        · exact s.dma_withOutputs ..
        · split <;> rfl
      · rfl

end

/-- The CPU does not see the outputs. -/
theorem cpuBlind_withOutputs (frame last : Picture) (done count : Nat) : CpuBlind (withOutputs · frame last done count) where
  rd s a := s.rd_withOutputs frame last done count a
  wr s a d := s.wr_withOutputs frame last done count a d
  a _ := rfl
  x _ := rfl
  y _ := rfl
  sp _ := rfl
  pc _ := rfl
  cycle _ := rfl
  setA _ _ := rfl
  setSp _ _ := rfl
  setPc _ _ := rfl
  charge _ _ := rfl
  readOp op _ _ := by cases op <;> rfl
  modifyByte op _ _ := by cases op <;> rfl
  modifyFlags op _ _ := by cases op <;> rfl
  taken op _ := by cases op <;> rfl
  p _ := rfl
  params _ := rfl
  setP _ _ := rfl

/-- An instruction steps alike whatever the outputs are. -/
theorem exec_withOutputs (i : Instr) (s : State) (frame last : Picture) (done count : Nat) :
    SameButOutputs (exec i s) (exec i (withOutputs s frame last done count)) := by
  have hb := cpuBlind_withOutputs frame last done count
  have of_eq : ∀ {t}, exec i s = .next t → exec i (withOutputs s frame last done count) = .next (withOutputs t frame last done count) →
      SameButOutputs (exec i s) (exec i (withOutputs s frame last done count)) := fun ht hu => by
    rw [ht, hu]
    exact ⟨frame, last, done, count, rfl⟩
  cases hs : shapeOf i with
  | some sh =>
    obtain ⟨t, ht, hu⟩ := hb.run s sh
    exact of_eq ((exec_of_shape hs s).trans ht) ((exec_of_shape hs _).trans hu)
  | none =>
    cases i with
    | tax | tay | txa | tya | tsx | txs | inx | iny | dex | dey | clc | sec | cli | sei | cld | sed | clv | nop =>
      exact of_eq rfl rfl
    | pha | php =>
      exact of_eq rfl (congrArg (fun u => Host.Outcome.next (State.charge u 3)) (hb.toBlind.push s _))
    | pla | plp =>
      refine of_eq rfl ?_
      simp only [exec, execPla, execPlp, implied, hb.toBlind.pull s]
      rfl
    | jsr a =>
      exact of_eq rfl (congrArg (fun u : State => Host.Outcome.next (State.charge { u with pc := a } 6)) (hb.toBlind.push16 s _))
    | rts =>
      refine of_eq rfl ?_
      simp only [exec, execRts, implied, hb.toBlind.pull16 s]
      rfl
    | rti => exact of_eq rfl (congrArg (fun u => Host.Outcome.next (State.charge u 6)) (hb.returnFromInterrupt s))
    | brk => exact of_eq rfl (congrArg (fun u => Host.Outcome.next (State.charge u 7)) (hb.softwareEntry s))
    | illegal op =>
      have hp : (withOutputs s frame last done count).params = s.params := rfl
      simp only [exec, execIllegal, hp, hb.doReset s]
      cases s.params.illegalPolicy with
      | reset => exact ⟨frame, last, done, count, rfl⟩
      | fault => exact rfl
    | _ => cases hs

/-- A CPU step is alike whatever the outputs are. -/
theorem State.cpuStep_withOutputs (s : State) (frame last : Picture) (done count : Nat) :
    SameButOutputs s.cpuStep (withOutputs s frame last done count).cpuStep := by
  have h := exec_withOutputs s.fetch.1 s.fetch.2 frame last done count
  unfold State.cpuStep
  rw [(cpuBlind_withOutputs frame last done count).fetch s]
  revert h
  cases exec s.fetch.1 s.fetch.2 <;> cases exec s.fetch.1 (withOutputs s.fetch.2 frame last done count) <;> intro h
  case next.next t u =>
    obtain ⟨frame', last', done', count', rfl⟩ := h
    exact ⟨frame', last', done', count', rfl⟩
  all_goals exact h

/-- `u` differs from `t` at most in the outputs. -/
def OutputsDiffer (t u : State) : Prop := ∃ frame last done count, u = withOutputs t frame last done count

/-- A scroll operation does not look at the outputs (47 R640). -/
theorem State.scroll_withOutputs (s : State) (frame last : Picture) (done count : Nat) (g : VAddr → VAddr → VAddr) :
    (withOutputs s frame last done count).scroll g = withOutputs (s.scroll g) frame last done count := by
  symm
  exact apply_ite (withOutputs · frame last done count) _ _ _

/-- A tile fetch does not look at the outputs (47 R650). -/
theorem State.fetchTile_withOutputs (s : State) (frame last : Picture) (done count : Nat) :
    (withOutputs s frame last done count).fetchTile = withOutputs s.fetchTile frame last done count := by
  have hr : (withOutputs s frame last done count).ppu.renderingEnabled = s.ppu.renderingEnabled := rfl
  have hx : ∀ (t : State) buf, ({ withOutputs t frame last done count with
      ppu := { (withOutputs t frame last done count).ppu with bgBuf := buf } } : State).incrementX =
        withOutputs (State.incrementX { t with ppu := { t.ppu with bgBuf := buf } }) frame last done count := fun t buf =>
    State.scroll_withOutputs { t with ppu := { t.ppu with bgBuf := buf } } ..
  unfold State.fetchTile
  simp only [hr, State.ppuRead_withOutputs]
  split
  · exact hx _ _
  · rfl

/-- A sprite fetch does not look at the outputs (48 R676). -/
theorem State.fetchSprite_withOutputs (s : State) (frame last : Picture) (done count : Nat) (i line : Nat) :
    (withOutputs s frame last done count).fetchSprite i line = withOutputs (s.fetchSprite i line) frame last done count := by
  have hr : (withOutputs s frame last done count).ppu.renderingEnabled = s.ppu.renderingEnabled := rfl
  have hc : (withOutputs s frame last done count).ppu.secCount = s.ppu.secCount := rfl
  have hz : (withOutputs s frame last done count).ppu.sprite0InSec = s.ppu.sprite0InSec := rfl
  have hs : (withOutputs s frame last done count).ppu.sec = s.ppu.sec := rfl
  have ha : ∀ y tile attr, spriteAddr (withOutputs s frame last done count).ppu line y tile attr =
    spriteAddr s.ppu line y tile attr := fun _ _ _ => rfl
  unfold State.fetchSprite
  simp only [hr, hc, hz, hs, ha, State.ppuRead_withOutputs]
  split
  · split
    · rfl
    · split <;> rfl
  · rfl

/-- Sprite evaluation does not look at the outputs (48 R673). -/
theorem State.evaluateSprites_withOutputs (s : State) (frame last : Picture) (done count : Nat) (line : Nat) :
    (withOutputs s frame last done count).evaluateSprites line = withOutputs (s.evaluateSprites line) frame last done count := by
  symm
  exact apply_ite (withOutputs · frame last done count) _ _ _

/-- `doVBlank` does not look at the outputs, NMI or not (48 R690). -/
theorem State.doVBlank_withOutputs (s : State) (frame last : Picture) (done count : Nat) :
    (withOutputs s frame last done count).doVBlank = withOutputs s.doVBlank frame last done count := by
  let t : State := { s with ppu := { s.ppu with vblank := true } }
  have hn : (withOutputs t frame last done count).doNMI = withOutputs t.doNMI frame last done count :=
    (cpuBlind_withOutputs frame last done count).enter t nmiVector true true
  calc (withOutputs s frame last done count).doVBlank
      = if s.ppu.nmiEnable = true then (withOutputs t frame last done count).doNMI
          else withOutputs t frame last done count := rfl
    _ = if s.ppu.nmiEnable = true then withOutputs t.doNMI frame last done count
          else withOutputs t frame last done count := by rw [hn]
    _ = withOutputs (if s.ppu.nmiEnable = true then t.doNMI else t) frame last done count :=
        (apply_ite (withOutputs · frame last done count) _ _ _).symm

/-- Composing a tile writes the picture and looks at no output (48 R684). -/
theorem OutputsDiffer.renderTile {t u : State} (h : OutputsDiffer t u) (line k : Nat) :
    OutputsDiffer (t.renderTile line k) (u.renderTile line k) := by
  unfold State.renderTile
  generalize List.range 8 = l
  induction l generalizing t u with
  | nil => exact h
  | cons i l ih =>
    obtain ⟨frame, last, done, count, rfl⟩ := h
    exact ih ⟨_, last, done, count, rfl⟩

/-- NO SCHEDULED OPERATION LOOKS AT THE OUTPUTS (49 R704). -/
theorem OutputsDiffer.perform {t u : State} (h : OutputsDiffer t u) (op : SchedOp) :
    OutputsDiffer (t.perform op) (u.perform op) := by
  have hu := h
  obtain ⟨frame, last, done, count, rfl⟩ := h
  cases op with
  | clearSecondaryOAM => exact ⟨frame, last, done, count, rfl⟩
  | evaluateSprites => exact ⟨frame, last, done, count, t.evaluateSprites_withOutputs ..⟩
  | clearSpriteLayers => exact ⟨frame, last, done, count, rfl⟩
  | fetchSprite i => exact ⟨frame, last, done, count, t.fetchSprite_withOutputs ..⟩
  | renderTile k => exact hu.renderTile t.scanline k
  | fetchTile => exact ⟨frame, last, done, count, t.fetchTile_withOutputs ..⟩
  | incrementY => exact ⟨frame, last, done, count, t.scroll_withOutputs frame last done count fun v _ => incY v⟩
  | resetX => exact ⟨frame, last, done, count, t.scroll_withOutputs frame last done count copyX⟩
  | resetY => exact ⟨frame, last, done, count, t.scroll_withOutputs frame last done count copyY⟩
  | frameDone => exact ⟨frame, frame, done + 1, count, rfl⟩
  | doVBlank => exact ⟨frame, last, done, count, t.doVBlank_withOutputs ..⟩
  | endVBlank => exact ⟨frame, last, done, count, rfl⟩

/-- Moving on counts a frame and looks at no output (49 R730). -/
theorem OutputsDiffer.advance {t u : State} (h : OutputsDiffer t u) : OutputsDiffer t.advance u.advance := by
  obtain ⟨frame, last, done, count, rfl⟩ := h
  by_cases hp : t.pos + 1 < (sched t.scanline).length
  · rw [State.advance_entry hp, State.advance_entry (s := withOutputs t frame last done count) hp]
    exact ⟨frame, last, done, count, rfl⟩
  · by_cases hl : t.scanline = 261
    · rw [State.advance_frame hp hl, State.advance_frame (s := withOutputs t frame last done count) hp hl]
      exact ⟨frame, last, done, count + 1, rfl⟩
    · rw [State.advance_line hp hl, State.advance_line (s := withOutputs t frame last done count) hp hl]
      exact ⟨frame, last, done, count, rfl⟩

/-- A PPU step looks at no output. -/
theorem OutputsDiffer.ppuStep {t u : State} (h : OutputsDiffer t u) : OutputsDiffer t.ppuStep u.ppuStep := by
  have key : ∀ (ops : List SchedOp) {t u : State}, OutputsDiffer t u →
      OutputsDiffer (ops.foldl State.perform t) (ops.foldl State.perform u) := by
    intro ops
    induction ops with
    | nil => exact id
    | cons op ops ih => exact fun h => ih (h.perform op)
  have he : u.entry = t.entry := by
    obtain ⟨frame, last, done, count, rfl⟩ := h
    rfl
  unfold State.ppuStep
  rw [he]
  exact (key _ h).advance

/-- The machine's own step is alike whatever the outputs are. -/
theorem State.machineStep_withOutputs (s : State) (frame last : Picture) (done count : Nat) :
    SameButOutputs s.machineStep (withOutputs s frame last done count).machineStep := by
  have hd : (withOutputs s frame last done count).cpuDue = s.cpuDue := rfl
  unfold State.machineStep
  rw [hd]
  split
  · exact s.cpuStep_withOutputs ..
  · exact OutputsDiffer.ppuStep ⟨frame, last, done, count, rfl⟩

end Sys2Proof.Machine

namespace Sys2Proof.Proofs

open Sys2Proof.Machine Sys2Proof.Claims

/-- Settles O58, by the call the environment makes: the machine's own step, the two entries and power on each look at no output. -/
theorem outputsAreNeverRead : Obligations.OutputsAreNeverRead := by
  intro s frame last done count
  have hb := cpuBlind_withOutputs frame last done count
  have ha : (withOutputs s frame last done count).agenda = s.agenda := rfl
  unfold step
  rw [ha]
  split
  · exact s.machineStep_withOutputs ..
  · next rest _ => exact State.machineStep_withOutputs { s with agenda := rest } ..
  · next rest _ => exact ⟨frame, last, done, count, hb.doIRQ { s with agenda := rest }⟩
  · next rest _ => exact ⟨frame, last, done, count, hb.doReset { s with agenda := rest }⟩
  · exact ⟨[], last, done, 0, rfl⟩

end Sys2Proof.Proofs
end

section
/-! Settles O55: what `exec` adds to `cycle`. -/

namespace Sys2Proof.Machine

open Sys2Proof.Claims

@[simp] theorem State.push_cycle (s : State) (b : Byte) : (s.push b).cycle = s.cycle := by rw [State.push_eq]

@[simp] theorem State.pull_cycle (s : State) : s.pull.2.cycle = s.cycle := by rw [State.pull_eq]

@[simp] theorem State.push16_cycle (s : State) (w : Addr) : (s.push16 w).cycle = s.cycle := by rw [State.push16_eq]

@[simp] theorem State.pull16_cycle (s : State) : s.pull16.2.cycle = s.cycle := by rw [State.pull16_eq]

@[simp] theorem State.jumpVector_cycle (s : State) (vec : Addr) : (s.jumpVector vec).cycle = s.cycle := by
  obtain ⟨u, hf, hu⟩ := s.jumpVector_frame vec
  rw [hu, hf.core]

@[simp] theorem State.softwareEntry_cycle (s : State) : s.softwareEntry.cycle = s.cycle := by
  rw [State.softwareEntry_eq, State.jumpVector_cycle]

@[simp] theorem State.returnFromInterrupt_cycle (s : State) : s.returnFromInterrupt.cycle = s.cycle := by
  rw [State.returnFromInterrupt_eq]

/-- An interrupt entry costs 7 cycles (60 R800). -/
@[simp] theorem State.doReset_cycle (s : State) : s.doReset.cycle = s.cycle + 7 := by
  obtain ⟨ram, sp, p, u, -, -, pc, he⟩ := s.enter_frame resetVector false s.params.resetPushesP
  rw [State.doReset, he]

/-- The stall of a write: none, or that of the DMA register (46 R620). -/
theorem State.dmaStall_cases (s : State) (a : Addr) :
    s.dmaStall a = 0 ∨ (a = 0x4014#16 ∧ s.dmaStall a = 513 + s.cycle % 2) := by
  unfold State.dmaStall
  split
  · next h => exact .inr ⟨BitVec.eq_of_toNat_eq h, rfl⟩
  · exact .inl rfl

/-- What a store may cost, by its modes (30 R320). -/
theorem store_of_shape {i : Instr} {op : StoreOp} {m : Ea} (h : shapeOf i = some (.store op m)) :
    (∀ a, m ≠ .ind a) ∧ 3 ≤ storeCost m ∧ storeCost m ≤ 6 := by
  cases i <;> cases h <;> simp [storeCost]

/-- What a read-modify-write on memory may cost, by its modes (30 R320). -/
theorem modifyMem_of_shape {i : Instr} {op : ModifyOp} {m : Ea} (h : shapeOf i = some (.modifyMem op m)) :
    (∀ a, m ≠ .ind a) ∧ 5 ≤ modifyCost m ∧ modifyCost m ≤ 7 := by
  cases i <;> cases h <;> simp [modifyCost]

theorem readBase_bounds (m : Ea) : 3 ≤ readBase m ∧ readBase m ≤ 6 := by
  cases m <;> simp [readBase]

theorem jumpCost_bounds (m : Ea) : 3 ≤ jumpCost m ∧ jumpCost m ≤ 5 := by
  cases m <;> simp [jumpCost]

/-- The instruction `i` stores or modifies memory through the mode `m` at a cost of `c` cycles. -/
def WritesThrough (i : Instr) (m : Ea) (c : Nat) : Prop :=
  (∃ op, shapeOf i = some (.store op m) ∧ c = storeCost m) ∨ (∃ op, shapeOf i = some (.modifyMem op m) ∧ c = modifyCost m)

/-- WHAT AN INSTRUCTION COSTS: 2 to 7 cycles, and the stall of its write if it writes memory through a mode (30 R330, R334). -/
theorem exec_cycle {i : Instr} {s t : State} (h : exec i s = .next t) :
    ∃ c, 2 ≤ c ∧ c ≤ 7 ∧ (t.cycle = s.cycle + c ∨
      ∃ m, WritesThrough i m c ∧ t.cycle = s.cycle + c + s.dmaStall (s.resolve m).ea) := by
  cases hs : shapeOf i with
  | some sh =>
    rw [exec_of_shape hs] at h
    cases sh with
    | readImm op v =>
      obtain ⟨a, x, y, p, e⟩ := op.run_regs v s
      cases h
      exact ⟨2, by decide, by decide, .inl (by rw [State.charge_cycle, e])⟩
    | readMem op m =>
      obtain ⟨b, u, n, hf, hr, hn⟩ := readMem_cases m (readBase m) (readPenalty m) op.run s
      obtain ⟨a, x, y, p, e⟩ := op.run_regs b u
      have hb := readBase_bounds m
      cases hr.symm.trans h
      exact ⟨n, by omega, by omega, .inl (by rw [State.charge_cycle, e, hf.core])⟩
    | store op m =>
      obtain ⟨hm, hl, hu⟩ := store_of_shape hs
      cases (storeMem_eq hm (storeCost m) op.reg s).symm.trans h
      exact ⟨storeCost m, by omega, by omega, .inr ⟨m, .inl ⟨op, hs, rfl⟩, (Nat.add_assoc ..).symm⟩⟩
    | modifyMem op m =>
      obtain ⟨hm, hl, hu⟩ := modifyMem_of_shape hs
      cases (modifyMem_eq hm (modifyCost m) op.run s).symm.trans h
      exact ⟨modifyCost m, by omega, by omega, .inr ⟨m, .inr ⟨op, hs, rfl⟩, (Nat.add_assoc ..).symm⟩⟩
    | modifyAcc op =>
      cases h
      exact ⟨2, by decide, by decide, .inl rfl⟩
    | jump m =>
      have hb := jumpCost_bounds m
      cases h
      exact ⟨jumpCost m, by omega, by omega, .inl (by rw [State.charge_cycle, (s.resolve_frame m).core])⟩
    | branch op o =>
      obtain ⟨pc, n, hb, hl, hu⟩ := branch_cases o (fun s => op.taken s.p) s
      cases hb.symm.trans h
      exact ⟨n, hl, by omega, .inl rfl⟩
  | none =>
    cases i with
    | tax | tay | txa | tya | tsx | txs | inx | iny | dex | dey | clc | sec | cli | sei | cld | sed | clv | nop =>
      cases h
      exact ⟨2, by decide, by decide, .inl rfl⟩
    | pha | php =>
      cases h
      exact ⟨3, by decide, by decide, .inl (by simp)⟩
    | pla | plp =>
      cases h
      exact ⟨4, by decide, by decide, .inl (by simp)⟩
    | jsr | rts | rti =>
      cases h
      exact ⟨6, by decide, by decide, .inl (by simp)⟩
    | brk =>
      cases h
      exact ⟨7, by decide, by decide, .inl (by simp)⟩
    | illegal op =>
      simp only [exec, execIllegal] at h
      split at h
      · cases h
        exact ⟨7, by decide, by decide, .inl s.doReset_cycle⟩
      · cases h
    | _ => cases hs

/-- An absolute store costs 4 cycles, its stall aside (30 R320). -/
theorem WritesThrough.absolute {i : Instr} {m : Ea} {c : Nat} (h : WritesThrough i m c)
    (ha : ∃ a, i = .staAbs a ∨ i = .stxAbs a ∨ i = .styAbs a) : c = 4 := by
  obtain ⟨a, rfl | rfl | rfl⟩ := ha <;> rcases h with ⟨op, hs, rfl⟩ | ⟨op, hs, rfl⟩ <;> cases hs <;> rfl

/-- An instruction that writes memory through a mode is one of the forms of its mnemonic. -/
theorem WritesThrough.row {i : Instr} {m : Ea} {c : Nat} (h : WritesThrough i m c) :
    ∃ b, staRow (.mem m) = some (i, b) ∨ stxRow (.mem m) = some (i, b) ∨ styRow (.mem m) = some (i, b) ∨
      incRow (.mem m) = some (i, b) ∨ decRow (.mem m) = some (i, b) ∨ aslRow (.mem m) = some (i, b) ∨
      lsrRow (.mem m) = some (i, b) ∨ rolRow (.mem m) = some (i, b) ∨ rorRow (.mem m) = some (i, b) := by
  rcases h with ⟨op, hs, -⟩ | ⟨op, hs, -⟩
  · obtain ⟨b, hb⟩ := row_of_shape_store hs
    cases op <;> exact ⟨b, by simp only [StoreOp.row] at hb; simp only [hb, true_or, or_true]⟩
  · obtain ⟨b, hb⟩ := row_of_shape_modifyMem hs
    cases op <;> exact ⟨b, by simp only [ModifyOp.row] at hb; simp only [hb, true_or, or_true]⟩

end Sys2Proof.Machine

namespace Sys2Proof.Proofs

open Sys2Proof.Machine Sys2Proof.Claims

/-- Settles O55: a cost without a stall, or a write through a mode whose stall is none or that of the DMA register. -/
theorem instructionCosts : Obligations.InstructionCosts := by
  intro i s t h
  obtain ⟨c, hl, hu, hc | ⟨m, hw, hc⟩⟩ := exec_cycle h
  · exact ⟨c, 0, hc, hl, hu, .inl rfl, fun _ => by omega, fun he => absurd rfl he⟩
  · refine ⟨c, s.dmaStall (s.resolve m).ea, hc, hl, hu, ?_, fun ha => ?_, fun he => ?_⟩
    · exact (s.dmaStall_cases _).imp_right And.right
    · have h4 := hw.absolute ha
      have hd := s.dmaStall_cases (s.resolve m).ea
      omega
    · obtain ⟨b, hb⟩ := hw.row
      exact ⟨m, b, ((s.dmaStall_cases _).resolve_left he).1, hb⟩

end Sys2Proof.Proofs
end

section
/-! SUPPORT. The CPU bus region by region from 0x2000 up (20 R202 to R205, R238), beside `State.rd_ram`, `State.wr_ram` and
`State.rd_cartridge`. -/

namespace Sys2Proof.Machine

/-- A read of 0x2000 to 0x3FFF reads the PPU register of the address's low three bits (20 R202). -/
theorem State.rd_ppuRegister (s : State) {a : Addr} (h0 : 0x2000 ≤ a.toNat) (h1 : a.toNat < 0x4000) :
    s.rd a = s.ppuRegRead (a.toNat % 8) := by
  unfold State.rd
  rw [if_neg (by omega), if_pos h1]

/-- A write of 0x2000 to 0x3FFF writes the PPU register of the address's low three bits (20 R202). -/
theorem State.wr_ppuRegister (s : State) {a : Addr} (d : Byte) (h0 : 0x2000 ≤ a.toNat) (h1 : a.toNat < 0x4000) :
    s.wr a d = s.ppuRegWrite (a.toNat % 8) d := by
  unfold State.wr
  rw [if_neg (by omega), if_pos h1]

/-- A read of 0x4000 to 0x4015 goes to the audio unit (20 R203, log 9). -/
theorem State.rd_audio (s : State) {a : Addr} (h0 : 0x4000 ≤ a.toNat) (h1 : a.toNat < 0x4016) :
    s.rd a = ((s.apu.readRegister a).1, { s with apu := (s.apu.readRegister a).2 }) := by
  unfold State.rd State.readIo
  rw [if_neg (by omega), if_neg (by omega), if_pos (by omega), if_neg (by omega), if_neg (by omega)]

/-- A write of 0x4000 to 0x4017 goes to the audio unit, but for the DMA register and the controllers' strobe (20 R203). -/
theorem State.wr_audio (s : State) {a : Addr} (d : Byte) (h0 : 0x4000 ≤ a.toNat) (h1 : a.toNat < 0x4018)
    (hd : a.toNat ≠ 0x4014) (hp : a.toNat ≠ 0x4016) : s.wr a d = { s with apu := s.apu.writeRegister a d } := by
  unfold State.wr State.writeIo
  rw [if_neg (by omega), if_neg (by omega), if_pos h1, if_neg hd, if_neg hp]

/-- A write from 0x4018 up goes to the cartridge (20 R205). -/
theorem State.wr_cartridge (s : State) {a : Addr} (d : Byte) (h : 0x4018 ≤ a.toNat) :
    s.wr a d = { s with cart := s.cart.cpuWrite a d } := by
  unfold State.wr
  rw [if_neg (by omega), if_neg (by omega), if_neg (by omega)]

/-- A read from 0x4018 up with the reference cartridge: PRG from 0x8000, 0 below, and no side effect (20 R238). -/
theorem State.rd_reference (s : State) {r : RefCart} (hr : s.cart = .reference r) {a : Addr} (h : 0x4018 ≤ a.toNat) :
    s.rd a = (if 0x8000 ≤ a.toNat then Table.read r.prg 0 (a.toNat - 0x8000) else 0, s) := by
  cases s
  subst hr
  exact State.rd_cartridge _ h

/-- The reference cartridge drops a write (20 R238). -/
theorem State.wr_reference (s : State) {r : RefCart} (hr : s.cart = .reference r) {a : Addr} (d : Byte)
    (h : 0x4018 ≤ a.toNat) : s.wr a d = s := by
  cases s
  subst hr
  exact State.wr_cartridge _ d h

/-- The PPU register image in 0x2000 to 0x2007 that has the low three bits of an address. -/
theorem ppuRegister_image (a : Addr) :
    (BitVec.ofNat 16 (0x2000 + a.toNat % 8)).toNat = 0x2000 + a.toNat % 8 := by
  rw [BitVec.toNat_ofNat]
  omega

/-- The byte that a quiet bus address holds with the reference cartridge: work RAM below 0x2000, else PRG (20 R201, R238). -/
def State.quietByte (s : State) (r : RefCart) (a : Nat) : Byte :=
  if a < 0x2000 then Table.read s.ram 0 (a % 0x800) else Table.read r.prg 0 (a - 0x8000)

/-- Fetching a byte from work RAM or the reference cartridge's PRG (30 R302). -/
theorem State.fetchByte_quiet (s : State) {r : RefCart} (hr : s.cart = .reference r)
    (h : s.pc.toNat < 0x2000 ∨ 0x8000 ≤ s.pc.toNat) :
    s.fetchByte = (s.quietByte r s.pc.toNat, { s with pc := s.pc + 1 }) := by
  have hrd : s.rd s.pc = (s.quietByte r s.pc.toNat, s) := by
    unfold State.quietByte
    rcases h with h | h
    · rw [s.rd_ram h, if_pos h]
    · rw [s.rd_reference hr (by omega), if_pos h, if_neg (by omega)]
  unfold State.fetchByte
  rw [hrd]

/-- The addresses that follow `PC`, counted from the next one. -/
theorem pc_succ_add (pc : Addr) (k : Nat) : ((pc + 1).toNat + k) % 65536 = (pc.toNat + (k + 1)) % 65536 := by
  have h1 : (1 : Addr).toNat = 1 := rfl
  rw [BitVec.toNat_add, h1]
  omega

/-- Fetching bytes from work RAM or the reference cartridge's PRG: the bytes from `PC` on, and `PC` past them (30 R302). -/
theorem State.fetchBytes_quiet (s : State) {r : RefCart} (n : Nat) (hr : s.cart = .reference r)
    (h : ∀ k, k < n → (s.pc.toNat + k) % 65536 < 0x2000 ∨ 0x8000 ≤ (s.pc.toNat + k) % 65536) :
    s.fetchBytes n = ((List.range n).map fun k => s.quietByte r ((s.pc.toNat + k) % 65536),
      { s with pc := BitVec.ofNat 16 (s.pc.toNat + n) }) := by
  induction n generalizing s with
  | zero => simp [State.fetchBytes]
  | succ n ih =>
    have hpc : (s.pc.toNat + 0) % 65536 = s.pc.toNat := Nat.mod_eq_of_lt s.pc.isLt
    have hb := s.fetchByte_quiet hr (by simpa only [hpc] using h 0 n.succ_pos)
    have hend : BitVec.ofNat 16 ((s.pc + 1).toNat + n) = BitVec.ofNat 16 (s.pc.toNat + (n + 1)) :=
      BitVec.eq_of_toNat_eq (by simpa only [BitVec.toNat_ofNat] using pc_succ_add s.pc n)
    have hrest := ih { s with pc := s.pc + 1 } hr fun k hk => by
      simpa only [pc_succ_add] using h (k + 1) (Nat.succ_lt_succ hk)
    simp only [pc_succ_add, hend] at hrest
    rw [State.fetchBytes, hb, hrest, List.range_succ_eq_map, List.map_cons, List.map_map, hpc]
    rfl

end Sys2Proof.Machine
end

section
/-! Settles O5, O29 and O30. -/

namespace Sys2Proof.Proofs

open Sys2Proof.Machine

/-- Settles O29: an access below 0x2000 is an access to the table of work RAM, read after write. -/
theorem workRamHasFourImages : Obligations.WorkRamHasFourImages := by
  intro s a b d ha hb
  refine ⟨s.rd_ram ha, ?_, ?_⟩
  · rw [State.rd_ram _ hb, s.rd_ram hb, s.wr_ram d ha]
    exact Table.read_write ..
  · rw [s.wr_ram d ha]

/-- Settles O30, region by region. -/
theorem cpuMemoryMap : Obligations.CpuMemoryMap := by
  intro s a d
  refine ⟨fun ⟨h0, h1⟩ => ?_, rfl, rfl, rfl, fun ⟨h0, h1⟩ => s.rd_audio h0 h1,
    fun ⟨h0, h1⟩ hd hp => s.wr_audio d h0 h1 hd hp, fun h => ⟨s.rd_cartridge h, s.wr_cartridge d h⟩,
    fun r hr h => ⟨s.rd_reference hr h, s.wr_reference hr d h⟩⟩
  have hi := ppuRegister_image a
  have hm : (0x2000 + a.toNat % 8) % 8 = a.toNat % 8 := by omega
  constructor
  · rw [s.rd_ppuRegister h0 h1, s.rd_ppuRegister (by omega) (by omega), hi, hm]
  · rw [s.wr_ppuRegister d h0 h1, s.wr_ppuRegister d (by omega) (by omega), hi, hm]

/-- Settles O5, by induction on the number of bytes. -/
theorem fetchReadsMemoryAndMovesOnlyPC : Obligations.FetchReadsMemoryAndMovesOnlyPC :=
  fun s _ n hr h => s.fetchBytes_quiet n hr h

end Sys2Proof.Proofs
end

section
/-! SUPPORT. How a step can end: the decoder answers well-formed instructions only, and nothing but an illegal opcode under policy
fault stops the machine. -/

namespace Sys2Proof.Machine

/-- The decoder answers well-formed instructions only (30 R322, R323): the opcode matrix row by row, the operand bytes open. -/
theorem decodeOp_wf (op b1 b2 : Byte) : (decodeOp op b1 b2).wf = true := by
  have hrow (row : Fin 16) :
      ((List.range 16).all fun col => (decodeOp (BitVec.ofNat 8 (16 * row + col)) b1 b2).wf) = true := by
    fin_cases row <;> rfl
  have hlt := op.isLt
  have hop := List.all_eq_true.1 (hrow ⟨op.toNat / 16, by omega⟩) (op.toNat % 16) (List.mem_range.2 (by omega))
  simpa only [Nat.div_add_mod, BitVec.ofNat_toNat, BitVec.setWidth_eq] using hop

/-- How an instruction, a CPU step or a step under the parameters `q` can end: in a next state, or, under policy fault alone, in
the fault that names an illegal opcode byte (60 R815). -/
def CompletesOrFaults (q : Params) (r : Result) : Prop :=
  (∃ t, r = .next t) ∨ ∃ op ∈ illegalOpcodes, q.illegalPolicy = .fault ∧ r = .fault (.illegalOpcode op)

/-- An instruction with a shape completes. -/
theorem Shape.run_completes (sh : Shape) (s : State) : ∃ t, sh.run s = .next t := by
  cases sh with
  | branch op o =>
    obtain ⟨pc, n, hb, -⟩ := branch_cases o (fun s => op.taken s.p) s
    exact ⟨_, hb⟩
  | _ => exact ⟨_, rfl⟩

/-- EVERY WELL-FORMED INSTRUCTION COMPLETES, but for an illegal opcode under policy fault (45 R558, 60 R815). -/
theorem exec_completesOrFaults {i : Instr} (hi : i.wf = true) (s : State) : CompletesOrFaults s.params (exec i s) := by
  cases hs : shapeOf i with
  | some sh => exact .inl (exec_of_shape hs s ▸ sh.run_completes s)
  | none =>
    cases i with
    | illegal op =>
      simp only [exec, execIllegal]
      cases hq : s.params.illegalPolicy with
      | reset => exact .inl ⟨_, rfl⟩
      | fault => exact .inr ⟨op, List.contains_iff_mem.1 hi, hq, rfl⟩
    | tax | tay | txa | tya | tsx | txs | inx | iny | dex | dey | clc | sec | cli | sei | cld | sed | clv | nop | pha | php
      | pla | plp | jsr | rts | rti | brk => exact .inl ⟨_, rfl⟩
    | _ => cases hs

/-- The CPU writes no parameter (00 R9, log 3). -/
theorem CpuPath.params {s t : State} (h : CpuPath s t) : t.params = s.params := by rw [h.frame.core]

theorem State.cpuStep_completesOrFaults (s : State) : CompletesOrFaults s.params s.cpuStep := by
  have h : CompletesOrFaults s.params (exec s.fetch.1 s.fetch.2) :=
    s.fetch_path.params ▸ exec_completesOrFaults (decodeOp_wf _ _ _) s.fetch.2
  unfold State.cpuStep
  rcases h with ⟨t, ht⟩ | ⟨op, ho, hq, hf⟩
  · exact .inl ⟨_, by rw [ht]⟩
  · exact .inr ⟨op, ho, hq, by rw [hf]⟩

theorem State.machineStep_completesOrFaults (s : State) : CompletesOrFaults s.params s.machineStep := by
  unfold State.machineStep
  split
  · exact s.cpuStep_completesOrFaults
  · exact .inl ⟨_, rfl⟩

/-- HOW A STEP CAN END: the environment's calls and the schedule entries complete, an instruction completes or faults. -/
theorem step_completesOrFaults (s : State) : CompletesOrFaults s.params (step s) := by
  unfold step
  split
  · exact s.machineStep_completesOrFaults
  · exact State.machineStep_completesOrFaults _
  · exact .inl ⟨_, rfl⟩
  · exact .inl ⟨_, rfl⟩
  · exact .inl ⟨_, rfl⟩

/-- A schedule entry writes no parameter, NMI or not. -/
theorem State.ppuStep_params (s : State) : s.ppuStep.params = s.params := by
  by_cases h : s.scanline = 241 ∧ s.pos = 0 ∧ s.ppu.nmiEnable = true
  · obtain ⟨hl, hp, -⟩ := h
    obtain ⟨-, -, -, -, -, -, hq⟩ := s.ppuStep_vblank hl hp
    exact hq
  · obtain ⟨cyc, off, line, pos, count, ppu, cart, done, last, he⟩ := s.ppuStep_quiet h
    rw [he]

/-- No step writes a parameter (00 R9, log 3), power on included (log 15). -/
theorem step_params {s t : State} (h : step s = .next t) : t.params = s.params := by
  rcases step_kinds h with hp | ⟨-, rfl⟩ | ⟨-, -, rfl⟩
  · exact hp.params
  · rfl
  · exact State.ppuStep_params _

end Sys2Proof.Machine
end

section
/-! Settles O54. -/

namespace Sys2Proof.Proofs

open Sys2Proof.Machine

/-- Settles O54, by the two ways a step can end. -/
theorem stepsNeverRefuseAndRarelyFault : Obligations.StepsNeverRefuseAndRarelyFault := by
  intro s
  rcases step_completesOrFaults s with ⟨t, ht⟩ | ⟨op, ho, hq, hf⟩
  · rw [ht]
    exact ⟨nofun, nofun, fun _ => ⟨t, rfl, step_params ht⟩⟩
  · rw [hf, hq]
    exact ⟨nofun, fun _ hop => by cases hop; exact ⟨rfl, ho⟩, nofun⟩

end Sys2Proof.Proofs
end

section
/-! SUPPORT. The PPU bus with the reference cartridge, cell by cell: a read answers the byte of the selected cell, a write
replaces that byte alone (20 R211 to R216, R238). -/

namespace Sys2Proof.Machine

open Sys2Proof.Claims

section

variable {s : State} {r : RefCart}

theorem State.ppuRead_chr (hr : s.cart = .reference r) {a : PpuAddr} (h : a.toNat < 0x2000) :
    s.ppuRead a = (Table.read r.chr 0 a.toNat, s) := by
  have hs : { s with cart := Cart.reference r } = s := by rw [← hr]
  have hn : ¬0x3F00 ≤ a.toNat := by omega
  simp [State.ppuRead, State.ppuReadUnder, hr, Cart.ciramEnabled_reference, Cart.ppuRead, Nat.mod_eq_of_lt h, Nat.not_le.2 h,
    hn, hs]

theorem State.ppuRead_ciram (hr : s.cart = .reference r) {a : PpuAddr} (h0 : 0x2000 ≤ a.toNat) (h1 : a.toNat < 0x3F00) :
    s.ppuRead a = (Table.read s.ppu.ciram 0 (ciramIndex ((Cart.reference r).ciramA10 a).1 a), s) := by
  have hs : { s with cart := Cart.reference r } = s := by rw [← hr]
  simp [State.ppuRead, State.ppuReadUnder, hr, Cart.ciramEnabled_reference, Cart.ciramA10_reference, Nat.not_le.2 h1, h0, hs]

theorem State.ppuWrite_chr (hr : s.cart = .reference r) {a : PpuAddr} (h : a.toNat < 0x2000) (d : Byte) :
    s.ppuWrite a d = { s with cart := .reference { r with chr := Table.write r.chr 0 a.toNat d } } := by
  have hn : ¬0x3F00 ≤ a.toNat := by omega
  simp [State.ppuWrite, hr, Cart.ciramEnabled_reference, Cart.ppuWrite, Nat.mod_eq_of_lt h, Nat.not_le.2 h, hn]

theorem State.ppuWrite_ciram (hr : s.cart = .reference r) {a : PpuAddr} (h0 : 0x2000 ≤ a.toNat) (h1 : a.toNat < 0x3F00)
    (d : Byte) :
    s.ppuWrite a d = { s with ppu := { s.ppu with
      ciram := Table.write s.ppu.ciram 0 (ciramIndex ((Cart.reference r).ciramA10 a).1 a) d } } := by
  simp [State.ppuWrite, hr, Cart.ciramEnabled_reference, Cart.ciramA10_reference, Nat.not_le.2 h1, h0]

end

/-- The byte a PPU cell (`ppuCell`) reads as with the reference cartridge `r`: CHR, CIRAM, and the two palettes of 16. -/
def State.ppuCellByte (s : State) (r : RefCart) (n : Nat) : Byte :=
  if n < 0x2000 then Table.read r.chr 0 n
  else if n < 0x3F00 then Table.read s.ppu.ciram 0 (n - 0x2000)
  else if n < 0x3F10 then (Table.read s.ppu.bgPal 0 (n - 0x3F00)).setWidth 8
  else (Table.read s.ppu.sprPal 0 (n - 0x3F10)).setWidth 8

/-- What a palette cell keeps of a byte: its low six bits, bits 7 and 6 read as 0 (20 R215, R216). -/
theorem lowSixBits_eq (d : Byte) : (d.setWidth 6).setWidth 8 = BitVec.ofNat 8 (d.toNat % 64) := by
  apply BitVec.eq_of_toNat_eq
  simp only [BitVec.toNat_setWidth, BitVec.toNat_ofNat]

theorem ppuCell_chr (m : Mirroring) {a : PpuAddr} (h : a.toNat < 0x2000) : ppuCell m a = a.toNat := by
  unfold ppuCell
  rw [if_neg (by omega), if_pos h]

/-- The CIRAM cell of an address, in the bank the reference cartridge selects (20 R211, R238). -/
theorem ppuCell_ciram (r : RefCart) {a : PpuAddr} (h0 : 0x2000 ≤ a.toNat) (h1 : a.toNat < 0x3F00) :
    ppuCell r.mirror a = 0x2000 + ciramIndex ((Cart.reference r).ciramA10 a).1 a := by
  have hbit : ∀ i, a.getLsbD i = decide (a.toNat / 2 ^ i % 2 = 1) := fun i => Nat.testBit_eq_decide_div_mod_eq
  obtain ⟨prg, chr, mirror⟩ := r
  unfold ppuCell ciramIndex Cart.ciramA10
  rw [if_neg (by omega), if_neg (by omega)]
  cases mirror <;> simp only [hbit, decide_eq_true_eq] <;> split <;> omega

/-- The cell of a palette address in the palette that holds it (20 R216). -/
theorem ppuCell_palette (m : Mirroring) {a : PpuAddr} (h : 0x3F00 ≤ a.toNat) :
    ppuCell m a = (if palIsBg a then 0x3F00 else 0x3F10) + a.toNat % 16 := by
  unfold ppuCell paletteCell palIsBg
  rw [if_pos h]
  simp only [Bool.or_eq_true, decide_eq_true_eq]
  split <;> split <;> omega

/-- The palette cells are those from 0x3F00 up. -/
theorem ppuCell_ge_iff (r : RefCart) (a : PpuAddr) : 0x3F00 ≤ ppuCell r.mirror a ↔ 0x3F00 ≤ a.toNat := by
  by_cases h1 : 0x3F00 ≤ a.toNat
  · rw [ppuCell_palette _ h1]
    split <;> omega
  · by_cases h0 : a.toNat < 0x2000
    · rw [ppuCell_chr _ h0]
    · have := ciramIndex_lt ((Cart.reference r).ciramA10 a).1 a
      rw [ppuCell_ciram r (by omega) (by omega)]
      omega

section

variable (s : State) (r : RefCart)

theorem State.ppuCellByte_chr {n : Nat} (h : n < 0x2000) : s.ppuCellByte r n = Table.read r.chr 0 n := if_pos h

theorem State.ppuCellByte_ciram {k : Nat} (h : k < 0x800) :
    s.ppuCellByte r (0x2000 + k) = Table.read s.ppu.ciram 0 k := by
  unfold State.ppuCellByte
  rw [if_neg (by omega), if_pos (by omega), Nat.add_sub_cancel_left]

theorem State.ppuCellByte_bgPal {k : Nat} (h : k < 16) :
    s.ppuCellByte r (0x3F00 + k) = (Table.read s.ppu.bgPal 0 k).setWidth 8 := by
  unfold State.ppuCellByte
  rw [if_neg (by omega), if_neg (by omega), if_pos (by omega), Nat.add_sub_cancel_left]

theorem State.ppuCellByte_sprPal (k : Nat) :
    s.ppuCellByte r (0x3F10 + k) = (Table.read s.ppu.sprPal 0 k).setWidth 8 := by
  unfold State.ppuCellByte
  rw [if_neg (by omega), if_neg (by omega), if_neg (by omega), Nat.add_sub_cancel_left]

/-- A byte written to a cell of CHR. -/
theorem State.ppuCellByte_writeChr {k : Nat} (h : k < 0x2000) (d : Byte) (n : Nat) (c : Cart) :
    ({ s with cart := c } : State).ppuCellByte { r with chr := Table.write r.chr 0 k d } n =
      if k = n then d else s.ppuCellByte r n := by
  by_cases hn : k = n
  · rw [if_pos hn, ← hn, State.ppuCellByte_chr _ _ h, Table.read_write_same]
  · rw [if_neg hn]
    exact ite_congr rfl (fun _ => Table.read_write_other _ _ _ hn) fun _ => rfl

/-- A byte written to a cell of CIRAM. -/
theorem State.ppuCellByte_writeCiram {k : Nat} (h : k < 0x800) (d : Byte) (n : Nat) :
    ({ s with ppu := { s.ppu with ciram := Table.write s.ppu.ciram 0 k d } } : State).ppuCellByte r n =
      if 0x2000 + k = n then d else s.ppuCellByte r n := by
  by_cases hn : 0x2000 + k = n
  · rw [if_pos hn, ← hn, State.ppuCellByte_ciram _ _ h, Table.read_write_same]
  · rw [if_neg hn]
    exact ite_congr rfl (fun _ => rfl) fun _ =>
      ite_congr rfl (fun _ => Table.read_write_other _ _ _ (by omega)) fun _ => rfl

/-- A colour written to a cell of the background palette. -/
theorem State.ppuCellByte_writeBgPal {k : Nat} (h : k < 16) (x : Colour) (n : Nat) :
    ({ s with ppu := { s.ppu with bgPal := Table.write s.ppu.bgPal 0 k x } } : State).ppuCellByte r n =
      if 0x3F00 + k = n then x.setWidth 8 else s.ppuCellByte r n := by
  by_cases hn : 0x3F00 + k = n
  · rw [if_pos hn, ← hn, State.ppuCellByte_bgPal _ _ h, Table.read_write_same]
  · rw [if_neg hn]
    exact ite_congr rfl (fun _ => rfl) fun _ => ite_congr rfl (fun _ => rfl) fun _ =>
      ite_congr rfl (fun _ => congrArg _ (Table.read_write_other _ _ _ (by omega))) fun _ => rfl

/-- A colour written to a cell of the sprite palette. -/
theorem State.ppuCellByte_writeSprPal (k : Nat) (x : Colour) (n : Nat) :
    ({ s with ppu := { s.ppu with sprPal := Table.write s.ppu.sprPal 0 k x } } : State).ppuCellByte r n =
      if 0x3F10 + k = n then x.setWidth 8 else s.ppuCellByte r n := by
  by_cases hn : 0x3F10 + k = n
  · rw [if_pos hn, ← hn, State.ppuCellByte_sprPal, Table.read_write_same]
  · rw [if_neg hn]
    exact ite_congr rfl (fun _ => rfl) fun _ => ite_congr rfl (fun _ => rfl) fun _ =>
      ite_congr rfl (fun _ => rfl) fun _ => congrArg _ (Table.read_write_other _ _ _ (by omega))

end

/-- A PPU BUS READ answers the byte of the selected cell and changes nothing (20 R214, R238). -/
theorem State.ppuRead_reference {s : State} {r : RefCart} (hr : s.cart = .reference r) (a : PpuAddr) :
    s.ppuRead a = (s.ppuCellByte r (ppuCell r.mirror a), s) := by
  by_cases h1 : 0x3F00 ≤ a.toNat
  · unfold State.ppuRead Ppu.paletteRead
    rw [if_pos h1, ppuCell_palette _ h1]
    split
    · rw [s.ppuCellByte_bgPal r (Nat.mod_lt _ (by decide))]
    · rw [s.ppuCellByte_sprPal r]
  · by_cases h0 : a.toNat < 0x2000
    · rw [State.ppuRead_chr hr h0, ppuCell_chr _ h0, s.ppuCellByte_chr r h0]
    · rw [State.ppuRead_ciram hr (by omega) (by omega), ppuCell_ciram r (by omega) (by omega),
        s.ppuCellByte_ciram r (ciramIndex_lt _ a)]

/-- A PPU BUS WRITE replaces the byte of the selected cell alone (20 R215, R216, R238). -/
theorem State.ppuWrite_reference {s : State} {r : RefCart} (hr : s.cart = .reference r) (a : PpuAddr) (d : Byte) :
    ∃ chr, (s.ppuWrite a d).cart = .reference { r with chr := chr } ∧
      ∀ n, (s.ppuWrite a d).ppuCellByte { r with chr := chr } n =
        if ppuCell r.mirror a = n then (if 0x3F00 ≤ a.toNat then BitVec.ofNat 8 (d.toNat % 64) else d)
        else s.ppuCellByte r n := by
  by_cases h1 : 0x3F00 ≤ a.toNat
  · rw [if_pos h1, ← lowSixBits_eq, ppuCell_palette _ h1]
    unfold State.ppuWrite Ppu.paletteWrite
    rw [if_pos h1]
    split
    · exact ⟨r.chr, hr, s.ppuCellByte_writeBgPal r (Nat.mod_lt _ (by decide)) _⟩
    · exact ⟨r.chr, hr, s.ppuCellByte_writeSprPal r _ _⟩
  · rw [if_neg h1]
    by_cases h0 : a.toNat < 0x2000
    · rw [State.ppuWrite_chr hr h0, ppuCell_chr _ h0]
      exact ⟨_, rfl, fun n => s.ppuCellByte_writeChr r h0 d n _⟩
    · rw [State.ppuWrite_ciram hr (by omega) (by omega), ppuCell_ciram r (by omega) (by omega)]
      exact ⟨r.chr, hr, s.ppuCellByte_writeCiram r (ciramIndex_lt _ a) d⟩

end Sys2Proof.Machine
end

section
/-! Settles O36. -/

namespace Sys2Proof.Proofs

open Sys2Proof.Machine Sys2Proof.Claims

/-- Settles O36: a read answers its cell's byte, and a write replaces the byte of its cell alone, of which a palette cell keeps
six bits. -/
theorem ppuBusReadAfterWrite : Obligations.PpuBusReadAfterWrite := by
  intro s r a b d hr
  obtain ⟨chr, hc, hw⟩ := State.ppuWrite_reference hr a d
  refine ⟨by rw [State.ppuRead_reference hr], ?_⟩
  rw [State.ppuRead_reference hc, State.ppuRead_reference hr b]
  refine (hw _).trans (ite_congr rfl (fun he => ?_) fun _ => rfl)
  simp only [← ppuCell_ge_iff r, he]

end Sys2Proof.Proofs
end

section
/-! SUPPORT. The decoder against the encoder (30 R300 to R323): a fact about every opcode byte is checked row by row of the opcode
matrix, the operand bytes open; a fact about every instruction is a split by its format. -/

namespace Sys2Proof.Machine

open Sys2Proof.Claims

/-- Two functions of the opcode byte are equal when they agree along each of the 16 rows of the matrix (30 R320). -/
theorem eq_of_rows {α : Type} {f g : Byte → α}
    (h : ∀ row : Fin 16, (List.range 16).map (fun col => f (BitVec.ofNat 8 (16 * row + col))) =
      (List.range 16).map fun col => g (BitVec.ofNat 8 (16 * row + col))) : f = g := by
  funext op
  have hlt := op.isLt
  have hop := List.map_inj_left.1 (h ⟨op.toNat / 16, by omega⟩) (op.toNat % 16) (List.mem_range.2 (by omega))
  simpa only [Nat.div_add_mod, BitVec.ofNat_toNat, BitVec.setWidth_eq] using hop

theorem loByte_word (lo hi : Byte) : loByte (word lo hi) = lo := by
  apply BitVec.eq_of_toNat_eq
  have := lo.isLt
  rw [loByte_toNat, word_toNat]
  omega

theorem hiByte_word (lo hi : Byte) : hiByte (word lo hi) = hi := by
  apply BitVec.eq_of_toNat_eq
  have := lo.isLt
  rw [hiByte_toNat, word_toNat]
  omega

/-- A 16-bit operand keeps its two bytes (30 R300). -/
theorem wordBytes_operandWord (b1 b2 : Byte) : wordBytes (operandWord b1 b2) = [b1, b2] :=
  congrArg₂ (fun lo hi => [lo, hi]) (loByte_word b1 b2) (hiByte_word b1 b2)

/-- An instruction has one, two or three bytes (30 R300). -/
theorem instrLength_cases (op : Byte) : instrLength op = 1 ∨ instrLength op = 2 ∨ instrLength op = 3 := by
  unfold instrLength
  cases (decodeOp op 0 0).mode <;> decide

/-- The encoding of the decoded instruction, in the three formats (30 R300). -/
theorem encode_decodeOp_format (op b1 b2 : Byte) : encode (decodeOp op b1 b2) =
    op :: if instrLength op = 3 then wordBytes (operandWord b1 b2) else [b1].take (instrLength op - 1) := by
  apply congrFun (eq_of_rows fun row => ?_) op
  fin_cases row <;> rfl

/-- THE DECODER LOSES NO BYTE (30 R301): the encoding of the decoded instruction is as many of the bytes as the opcode byte says. -/
theorem encode_decodeOp (op b1 b2 : Byte) : encode (decodeOp op b1 b2) = [op, b1, b2].take (instrLength op) := by
  rw [encode_decodeOp_format, wordBytes_operandWord]
  rcases instrLength_cases op with h | h | h <;> rw [h] <;> rfl

/-- The illegal bytes decode to themselves, the bytes after them ignored (30 R322). -/
theorem decodeOp_illegal {op : Byte} (h : op ∈ illegalOpcodes) (b1 b2 : Byte) : decodeOp op b1 b2 = .illegal op := by
  have hall : illegalOpcodes.map (decodeOp · b1 b2) = illegalOpcodes.map .illegal := rfl
  exact List.map_inj_left.1 hall op h

/-- THE DECODER READS AN INSTRUCTION BACK from its own bytes, whatever bytes follow (30 R300, R301). -/
theorem decodeOp_encode {i : Instr} (h : i.wf = true) : ∃ op args, encode i = op :: args ∧
    instrLength op = args.length + 1 ∧ ∀ rest, decodeOp op ((args ++ rest).getD 0 0) ((args ++ rest).getD 1 0) = i := by
  cases i with
  | illegal op =>
    have hop : op ∈ illegalOpcodes := List.contains_iff_mem.1 h
    exact ⟨op, [], rfl, by rw [instrLength, decodeOp_illegal hop]; rfl, fun _ => decodeOp_illegal hop _ _⟩
  | ldaAbs a | ldaAbsX a | ldaAbsY a | ldxAbs a | ldxAbsY a | ldyAbs a | ldyAbsX a | staAbs a | staAbsX a | staAbsY a | stxAbs a
  | styAbs a | adcAbs a | adcAbsX a | adcAbsY a | sbcAbs a | sbcAbsX a | sbcAbsY a | cmpAbs a | cmpAbsX a | cmpAbsY a | cpxAbs a
  | cpyAbs a | incAbs a | incAbsX a | decAbs a | decAbsX a | andAbs a | andAbsX a | andAbsY a | oraAbs a | oraAbsX a | oraAbsY a
  | eorAbs a | eorAbsX a | eorAbsY a | bitAbs a | aslAbs a | aslAbsX a | lsrAbs a | lsrAbsX a | rolAbs a | rolAbsX a | rorAbs a
  | rorAbsX a | jmpAbs a | jmpInd a | jsr a =>
    exact ⟨_, _, rfl, rfl, fun _ => Eq.trans rfl (congrArg _ (word_lo_hi a))⟩
  | _ => exact ⟨_, _, rfl, rfl, fun _ => rfl⟩

/-- The decoder on the bytes of an instruction and the bytes after it (30 R300, R301). -/
theorem decode_encode {i : Instr} (h : i.wf = true) (rest : List Byte) : decode (encode i ++ rest) = .ok (i, rest) := by
  obtain ⟨op, args, he, hlen, hi⟩ := decodeOp_encode h
  rw [he, List.cons_append, decode, hi, hlen, if_neg (by simp), Nat.add_sub_cancel, List.drop_left]

/-- The decoder answers when the operand bytes the opcode byte asks for are there, and only then (30 R323). -/
theorem decode_cons_of_le {op : Byte} {rest : List Byte} (h : instrLength op ≤ rest.length + 1) :
    decode (op :: rest) = .ok (decodeOp op (rest.getD 0 0) (rest.getD 1 0), rest.drop (instrLength op - 1)) :=
  if_neg (Nat.not_lt.2 h)

theorem decode_cons_of_lt {op : Byte} {rest : List Byte} (h : rest.length + 1 < instrLength op) :
    decode (op :: rest) = .error (.missingOperand op) := if_pos h

/-- The bytes used are the instruction's encoding and the others are left (30 R301). -/
theorem encode_decodeOp_append {op : Byte} {rest : List Byte} (h : instrLength op ≤ rest.length + 1) :
    encode (decodeOp op (rest.getD 0 0) (rest.getD 1 0)) ++ rest.drop (instrLength op - 1) = op :: rest := by
  rw [encode_decodeOp]
  rcases instrLength_cases op with hn | hn | hn <;> rw [hn] at h ⊢
  · rfl
  · match rest, h with
    | b1 :: _, _ => rfl
  · match rest, h with
    | b1 :: b2 :: _, _ => rfl

theorem encode_decodeOp_length (op b1 b2 : Byte) : (encode (decodeOp op b1 b2)).length = instrLength op := by
  rw [encode_decodeOp, List.length_take]
  rcases instrLength_cases op with h | h | h <;> rw [h] <;> rfl

/-- The bytes that decode to an illegal instruction are the 105 of 30 R322. -/
theorem decodeOp_eq_illegal_iff (op b1 b2 : Byte) : (∃ q, decodeOp op b1 b2 = .illegal q) ↔ op ∈ illegalOpcodes := by
  refine ⟨fun ⟨q, hq⟩ => ?_, fun h => ⟨op, decodeOp_illegal h b1 b2⟩⟩
  have hwf := decodeOp_wf op b1 b2
  have henc := encode_decodeOp_format op b1 b2
  rw [hq] at hwf henc
  obtain ⟨rfl, -⟩ := List.cons.inj henc
  exact List.contains_iff_mem.1 hwf

end Sys2Proof.Machine
end

section
/-! Settles O1, O2 and O3. -/

namespace Sys2Proof.Proofs

open Sys2Proof.Machine

/-- Settles O1: an instruction's own bytes decode to it, and no byte after them is looked at. -/
theorem encodedInstructionsDecodeBack : Obligations.EncodedInstructionsDecodeBack :=
  fun _ rest h => decode_encode h rest

/-- Settles O2, by the two ends of the decoder on an opcode byte with the bytes after it. -/
theorem decodedBytesEncodeBack : Obligations.DecodedBytesEncodeBack := by
  refine ⟨fun bytes => ?_, by decide, by decide, decodeOp_eq_illegal_iff⟩
  cases bytes with
  | nil => exact ⟨nofun, nofun, fun h => absurd rfl h.1⟩
  | cons op rest =>
    rw [List.headD_cons, List.length_cons]
    rcases Nat.lt_or_ge (rest.length + 1) (instrLength op) with hlt | hle
    · rw [decode_cons_of_lt hlt]
      exact ⟨nofun, nofun, fun h => absurd h.2 (Nat.not_le.2 hlt)⟩
    · rw [decode_cons_of_le hle]
      refine ⟨fun i left h => ?_, fun _ => ⟨List.cons_ne_nil _ _, hle⟩, fun _ => ⟨_, rfl⟩⟩
      cases h
      exact ⟨decodeOp_wf _ _ _, encode_decodeOp_append hle, encode_decodeOp_length _ _ _⟩

/-- Settles O3: each word is the encoding of the instruction named, written out. -/
theorem writtenOutWordsDecode : Obligations.WrittenOutWordsDecode :=
  have ownBytes (i : Instr) (h : i.wf = true) : decode (encode i) = .ok (i, []) := by
    rw [← List.append_nil (encode i), decode_encode h]
  ⟨ownBytes (.ldaImm 0x80#8) rfl, ownBytes (.staAbsX 0x1234#16) rfl, ownBytes .tsx rfl, ownBytes .php rfl,
    ownBytes (.adcIndY 0x20#8) rfl, ownBytes (.decZpX 0x10#8) rfl, ownBytes (.bitAbs 0x2002#16) rfl, ownBytes .rorAcc rfl,
    ownBytes (.jmpInd 0x02FF#16) rfl, ownBytes (.jsr 0x1234#16) rfl, ownBytes (.bne 0xFD#8) rfl, ownBytes .sed rfl,
    ownBytes (.illegal 0x02#8) rfl, ownBytes (.illegal 0xFF#8) rfl⟩

end Sys2Proof.Proofs
end

section
/-! SUPPORT. A step that runs an instruction: fetching an instruction's own bytes decodes it. -/

namespace Sys2Proof.Machine

open Sys2Proof.Claims

/-- Without a call of the environment a step is the machine's own (60 R812). -/
theorem step_of_noCallHere {s : State} (h : NoCallHere s) : step s = (taken s).machineStep := by
  rcases h with h | ⟨rest, h⟩
  · have ht : taken s = s := by cases s; cases h; rfl
    simp only [step, h, ht]
  · simp only [step, taken, h, List.tail_cons]

/-- With the CPU due as well it is a CPU step (49 R706). -/
theorem step_cpu {s : State} (h : NoCallHere s) (hd : s.cpuDue = true) : step s = (taken s).cpuStep :=
  (step_of_noCallHere h).trans (if_pos hd)

/-- FETCHING the bytes of a well-formed instruction decodes it (30 R301, R302). -/
theorem State.fetch_of_bytes {s t : State} {i : Instr} (hi : i.wf = true)
    (h : s.fetchBytes (encode i).length = (encode i, t)) : s.fetch = (i, t) := by
  obtain ⟨op, args, he, hlen, hdec⟩ := decodeOp_encode hi
  rw [he, List.length_cons, State.fetchBytes] at h
  obtain ⟨hbytes, rfl⟩ := Prod.mk.inj h
  obtain ⟨hop, hargs⟩ := List.cons.inj hbytes
  have hd := hdec []
  rw [List.append_nil] at hd
  unfold State.fetch
  dsimp only
  rw [hop, hlen, Nat.add_sub_cancel, hargs, hd]

end Sys2Proof.Machine
end

section
/-! Settles O4. -/

namespace Sys2Proof.Proofs

open Sys2Proof.Machine Sys2Proof.Claims

/-- Settles O4: the step is a CPU step, its fetch is the instruction, and the audio unit's call counts from the state before. -/
theorem stepRunsTheDecodedInstruction : Obligations.StepRunsTheDecodedInstruction := by
  intro s t i hi ha hdue hf
  have hfetch := State.fetch_of_bytes hi hf
  rw [step_cpu ha (decide_eq_true hdue), State.cpuStep, hfetch]
  rfl

end Sys2Proof.Proofs
end

section
/-! SUPPORT. Stores and read-modify-write instructions in the words of the statements (30 R317): their forms from the tables of the
mnemonics, and their rule once for every operation. -/

namespace Sys2Proof.Machine

open Sys2Proof.Claims

/-- The operand bytes of a 16-bit operand by plain arithmetic (30 R300). -/
theorem wordBytes_eq (a : Addr) : wordBytes a = [BitVec.ofNat 8 (a.toNat % 256), BitVec.ofNat 8 (a.toNat / 256)] :=
  congrArg₂ (fun lo hi => [lo, hi]) (loByte_eq a) (hiByte_eq a)

/-- The forms of a store: a mode, with its shape and its encoding (40 R403 to R405). -/
theorem store_of_row {op : StoreOp} {f : Form} {i : Instr} {b : Byte} (h : op.row f = some (i, b)) :
    encode i = b :: f.bytes ∧ ∃ m, f = .mem m ∧ shapeOf i = some (.store op m) := by
  cases f with
  | imm v => cases op <;> cases h
  | acc => cases op <;> cases h
  | mem m =>
    cases op <;> cases m <;> cases h <;>
      exact ⟨by simp only [encode, Form.bytes, wordBytes_eq, BitVec.ofNat_eq_ofNat], _, rfl, rfl⟩

/-- The forms of a read-modify-write instruction: the accumulator or a mode, with its shape and its encoding (42 R458, R461,
43 R484 to R487). -/
theorem modify_of_row {op : ModifyOp} {f : Form} {i : Instr} {b : Byte} (h : op.row f = some (i, b)) :
    encode i = b :: f.bytes ∧ (f = .acc ∧ shapeOf i = some (.modifyAcc op) ∨
      ∃ m, f = .mem m ∧ shapeOf i = some (.modifyMem op m)) := by
  cases f with
  | imm v => cases op <;> cases h
  | acc => cases op <;> cases h <;> exact ⟨rfl, .inl ⟨rfl, rfl⟩⟩
  | mem m =>
    cases op <;> cases m <;> cases h <;>
      exact ⟨by simp only [encode, Form.bytes, wordBytes_eq, BitVec.ofNat_eq_ofNat], .inr ⟨_, rfl, rfl⟩⟩

/-- The extra cycles of a write (46 R620). -/
theorem dmaStall_eq_stall (s : State) (a : Addr) : s.dmaStall a = stall s a := by
  have ha : a.toNat = 0x4014 ↔ a = 0x4014#16 := ⟨fun h => BitVec.eq_of_toNat_eq h, fun h => by rw [h]; rfl⟩
  simp only [State.dmaStall, stall, ha]
  split
  · split <;> omega
  · rfl

/-- A write of work RAM, read back cell by cell (20 R201, R205). -/
theorem State.read_wr_ram (s : State) {a : Addr} (d : Byte) (h : a.toNat < 0x2000) (k : Nat) :
    Table.read (s.wr a d).ram 0 k = if k = a.toNat % 0x800 then d else Table.read s.ram 0 k := by
  rw [s.wr_ram d h, Table.read_write]
  simp only [eq_comm]

/-- THE RULE OF EVERY STORE (30 R317, 40 R403 to R405). -/
theorem storeRule (op : StoreOp) : StoreRule op.row op.reg := by
  intro f i b h
  obtain ⟨henc, m, rfl, hs⟩ := store_of_row h
  obtain ⟨hm, -⟩ := store_of_shape hs
  refine ⟨henc, m, rfl, fun s => ⟨s.resolve_st hm, ?_, s.wr_frame _ _, s.read_wr_ram _⟩⟩
  rw [exec_of_shape hs, Shape.run, storeMem_eq hm, dmaStall_eq_stall, Nat.add_assoc]

/-- THE RULE OF EVERY READ-MODIFY-WRITE INSTRUCTION (20 R222, 30 R317), whatever words its operation is given in. -/
theorem modifyRule {op : ModifyOp} {result : Byte → Status → Byte} {flags : Byte → Status → Status}
    (hop : ∀ old p, op.run old p = (result old p, flags old p)) : ModifyRule op.row result flags := by
  intro f i b h
  obtain ⟨henc, hform⟩ := modify_of_row h
  refine ⟨henc, fun s => ⟨?_, ?_⟩⟩
  · rintro rfl
    obtain ⟨-, hs⟩ | ⟨m, hm, -⟩ := hform
    · rw [exec_of_shape hs, Shape.run, Machine.modifyAcc, hop]
      rfl
    · cases hm
  · rintro m rfl
    obtain ⟨hacc, -⟩ | ⟨m, hm, hs⟩ := hform
    · cases hacc
    · cases hm
      obtain ⟨hm, -⟩ := modifyMem_of_shape hs
      refine ⟨s.resolve_st hm, s.rd_frame _, State.wr_frame _ _ _, ?_⟩
      rw [exec_of_shape hs, Shape.run, modifyMem_eq hm, hop, dmaStall_eq_stall, Nat.add_assoc]

/-- `setZN` in the words of the statements (10 R112). -/
theorem setZN_eq_zn (p : Status) (b : Byte) : p.setZN b = zn p b := by
  simp [Status.setZN, zn, BitVec.msb_eq_getLsbD_last, beq_eq_decide]

/-- INC by plain arithmetic (42 R458). -/
theorem incOp_eq (old : Byte) (p : Status) :
    incOp old p = (BitVec.ofNat 8 (old.toNat + 1), zn p (BitVec.ofNat 8 (old.toNat + 1))) := by
  have hb : old + 1 = BitVec.ofNat 8 (old.toNat + 1) := by bv_omega
  simp only [incOp, hb, setZN_eq_zn]

/-- DEC by plain arithmetic (42 R461). -/
theorem decOp_eq (old : Byte) (p : Status) :
    decOp old p = (BitVec.ofNat 8 (old.toNat + 255), zn p (BitVec.ofNat 8 (old.toNat + 255))) := by
  have hb : old - 1 = BitVec.ofNat 8 (old.toNat + 255) := by bv_omega
  simp only [decOp, hb, setZN_eq_zn]

/-- The flags of `alu(raw)` for a raw value of nine bits: C is its bit 8 (10 R113). -/
theorem alu_eq (p : Status) (raw : Nat) : p.alu raw = { zn p (BitVec.ofNat 8 raw) with c := decide (256 ≤ raw) } := by
  simp only [Status.alu, aluByte, setZN_eq_zn, Nat.succ_le_iff]

/-- ASL by plain arithmetic (43 R484). -/
theorem aslOp_eq (old : Byte) (p : Status) : aslOp old p = (BitVec.ofNat 8 (2 * old.toNat),
    { zn p (BitVec.ofNat 8 (2 * old.toNat)) with c := decide (128 ≤ old.toNat) }) := by
  have hraw : old.toNat <<< 1 = 2 * old.toNat := by rw [Nat.shiftLeft_eq]; omega
  have hc : 256 ≤ 2 * old.toNat ↔ 128 ≤ old.toNat := by omega
  simp only [aslOp, hraw, alu_eq, aluByte, hc]

/-- ROL by plain arithmetic (43 R486): the old C fills the bit the shift leaves free. -/
theorem rolOp_eq (old : Byte) (p : Status) : rolOp old p = (BitVec.ofNat 8 (2 * old.toNat + p.c.toNat),
    { zn p (BitVec.ofNat 8 (2 * old.toNat + p.c.toNat)) with c := decide (128 ≤ old.toNat) }) := by
  have hb := p.c.toNat_lt
  have hraw : old.toNat <<< 1 ||| p.c.toNat = 2 * old.toNat + p.c.toNat := by
    rw [← Nat.shiftLeft_add_eq_or_of_lt (by omega), Nat.shiftLeft_eq]; omega
  have hc : 256 ≤ 2 * old.toNat + p.c.toNat ↔ 128 ≤ old.toNat := by omega
  simp only [rolOp, hraw, alu_eq, aluByte, hc]

/-- The bit a right shift moves out (43 R485, R487). -/
theorem getLsbD_zero_eq (b : Byte) : b.getLsbD 0 = decide (b.toNat % 2 = 1) := by
  revert b
  decide

/-- LSR by plain arithmetic (43 R485). -/
theorem lsrOp_eq (old : Byte) (p : Status) : lsrOp old p = (BitVec.ofNat 8 (old.toNat / 2),
    { zn p (BitVec.ofNat 8 (old.toNat / 2)) with c := decide (old.toNat % 2 = 1) }) := by
  have hb : old >>> 1 = BitVec.ofNat 8 (old.toNat / 2) := by revert old; decide
  simp only [lsrOp, hb, setZN_eq_zn, getLsbD_zero_eq]

/-- ROR by plain arithmetic (43 R487). -/
theorem rorOp_eq (old : Byte) (p : Status) : rorOp old p = (BitVec.ofNat 8 (old.toNat / 2 + 128 * p.c.toNat),
    { zn p (BitVec.ofNat 8 (old.toNat / 2 + 128 * p.c.toNat)) with c := decide (old.toNat % 2 = 1) }) := by
  have hb : ∀ c : Bool, old >>> 1 ||| (BitVec.ofBool c).setWidth 8 <<< 7 = BitVec.ofNat 8 (old.toNat / 2 + 128 * c.toNat) := by
    revert old
    decide
  simp only [rorOp, hb, setZN_eq_zn, getLsbD_zero_eq]

end Sys2Proof.Machine
end

section
/-! Settles O9, O16 and O18. -/

namespace Sys2Proof.Proofs

open Sys2Proof.Machine Sys2Proof.Claims

/-- Settles O9: the three stores are one rule. -/
theorem storesWriteOnlyMemory : Obligations.StoresWriteOnlyMemory :=
  ⟨storeRule .sta, storeRule .stx, storeRule .sty⟩

/-- Settles O16: both are the one rule, their operations by plain arithmetic. -/
theorem incrementAndDecrementMemory : Obligations.IncrementAndDecrementMemory :=
  ⟨modifyRule (op := .inc) incOp_eq, modifyRule (op := .dec) decOp_eq⟩

/-- Settles O18: the four are the one rule, accumulator and memory, their operations by plain arithmetic. -/
theorem shiftsAndRotates : Obligations.ShiftsAndRotates :=
  ⟨modifyRule (op := .asl) aslOp_eq, modifyRule (op := .lsr) lsrOp_eq, modifyRule (op := .rol) rolOp_eq,
    modifyRule (op := .ror) rorOp_eq⟩

end Sys2Proof.Proofs
end

section
/-! SUPPORT. Addressing modes, jumps and branches by plain arithmetic (30 R306 to R316, R309, R333, 44 R510, R515). -/

namespace Sys2Proof.Machine

open Sys2Proof.Claims

/-- The address of an indirect jump's high byte by plain arithmetic (30 R313). -/
theorem samePageNext_eq (a : Addr) :
    samePageNext a = BitVec.ofNat 16 (256 * (a.toNat / 256) + (a.toNat % 256 + 1) % 256) := by
  have := a.isLt
  have h1 : (1 : Byte).toNat = 1 := rfl
  apply BitVec.eq_of_toNat_eq
  rw [samePageNext, word_toNat, BitVec.toNat_add, loByte_toNat, hiByte_toNat, BitVec.toNat_ofNat, h1]
  omega

/-- The indirect mode: the byte at the operand, then the byte at the next address of its page (30 R313). -/
theorem State.resolve_ind (s : State) (a : Addr) :
    let lo := s.rd a
    let hi := lo.2.rd (BitVec.ofNat 16 (256 * (a.toNat / 256) + (a.toNat % 256 + 1) % 256))
    s.resolve (.ind a) = ⟨le16 lo.1 hi.1, false, hi.2⟩ := by
  simp only [State.resolve, samePageNext_eq, word_eq_le16]

/-- Two addresses are on different pages when their quotients by 256 differ (30 R309, R311). -/
theorem pageDiffers_eq (a b : Addr) : pageDiffers a b = decide (a.toNat / 256 ≠ b.toNat / 256) := by
  rw [Bool.eq_iff_iff, pageDiffers, bne_iff_ne, decide_eq_true_iff, ← hiByte_toNat, ← hiByte_toNat, ne_eq, ← BitVec.toNat_inj]

/-- An address plus an index, modulo 65536 (30 R311, R312, R315). -/
theorem add_index_eq (a : Addr) (i : Byte) : a + i.setWidth 16 = BitVec.ofNat 16 (a.toNat + i.toNat) := by
  have := i.isLt
  apply BitVec.eq_of_toNat_eq
  rw [BitVec.toNat_add, BitVec.toNat_setWidth, BitVec.toNat_ofNat]
  omega

/-- An indexed access crosses a page when base and sum differ in page (30 R311). -/
theorem pageDiffers_add_index (a : Addr) (i : Byte) :
    pageDiffers a (BitVec.ofNat 16 (a.toNat + i.toNat)) = decide (a.toNat / 256 ≠ (a.toNat + i.toNat) % 65536 / 256) := by
  rw [pageDiffers_eq, BitVec.toNat_ofNat]

theorem zeroPage_eq (z : Byte) : zeroPage z = BitVec.ofNat 16 z.toNat := by
  have := z.isLt
  apply BitVec.eq_of_toNat_eq
  rw [zeroPage_toNat, BitVec.toNat_ofNat]
  omega

/-- A zero-page pointer as the bytes of two cells of page 0 (30 R314, R315). -/
theorem State.readPointer_of_toNat (s : State) {z : Byte} {n : Nat} (h : z.toNat = n % 256) :
    s.readPointer z = (le16 (Table.read s.ram 0 (n % 256)) (Table.read s.ram 0 ((n + 1) % 256)), s) := by
  have hnext : (z + 1).toNat = (n + 1) % 256 := by
    rw [BitVec.toNat_add, h]
    exact Nat.mod_add_mod ..
  rw [s.readPointer_eq, word_eq_le16, h, hnext]

/-- JMP takes the resolved address, after the reads of its mode (44 R510). -/
theorem jump_eq (m : Ea) (cost : Nat) (s : State) :
    jump m cost s = .next { (s.resolve m).st with pc := (s.resolve m).ea, cycle := s.cycle + cost } := by
  have hc : (s.resolve m).st.cycle = s.cycle := by rw [(s.resolve_frame m).core]
  simp only [jump, State.charge, hc]

/-- The target of a branch (30 R309). -/
theorem branchTarget_eq (pc : Addr) (o : Byte) : branchTarget pc o = BitVec.ofInt 16 (pc.toNat + o.toInt) := by
  rw [branchTarget, BitVec.signExtend, BitVec.ofInt_add, BitVec.ofInt_natCast, BitVec.ofNat_toNat, BitVec.setWidth_eq]

/-- THE RULE OF EVERY BRANCH (44 R515, 30 R333). -/
theorem branchRule {op : BranchOp} {i : Byte → Instr} {b : Byte} (henc : ∀ o, encode (i o) = [b, o])
    (hs : ∀ o, shapeOf (i o) = some (.branch op o)) : BranchRule i b op.taken := by
  intro o s
  refine ⟨henc o, ?_⟩
  rw [exec_of_shape (hs o), Shape.run, Machine.branch, ← branchTarget_eq]
  dsimp only
  cases hc : op.taken s.p with
  | false => rfl
  | true =>
    by_cases h : s.pc.toNat / 256 = (branchTarget s.pc o).toNat / 256
    · simp [pageDiffers_eq, h, State.charge]
    · simp [pageDiffers_eq, h, State.charge]

end Sys2Proof.Machine
end

section
/-! Settles O19, O23 and O28. -/

namespace Sys2Proof.Proofs

open Sys2Proof.Machine Sys2Proof.Claims

/-- Settles O19: JMP takes the resolved address, and resolving it is two bus reads at most. -/
theorem jumpsSetPC : Obligations.JumpsSetPC := by
  refine ⟨fun f i op h => ?_, fun a s => rfl, fun a s => ⟨?_, (s.rd_frame a).trans (State.rd_frame _ _)⟩⟩
  · cases f with
    | mem m => cases m <;> cases h <;> exact congrArg _ (wordBytes_eq _)
    | _ => cases h
  · exact (jump_eq (.ind a) 5 s).trans (by rw [s.resolve_ind])

/-- Settles O28, mode by mode. -/
theorem addressingModesResolve : Obligations.AddressingModesResolve := by
  intro s z a
  refine ⟨?_, ?_, ?_, rfl, ?_, ?_, ?_, ?_, s.resolve_ind a, (s.rd_frame a).trans (State.rd_frame _ _)⟩
  · simp only [State.resolve, zeroPage_eq]
  · simp only [State.resolve, zeroPage_eq, BitVec.toNat_add]
  · simp only [State.resolve, zeroPage_eq, BitVec.toNat_add]
  · simp only [State.resolve, add_index_eq, pageDiffers_add_index]
  · simp only [State.resolve, add_index_eq, pageDiffers_add_index]
  · simp only [State.resolve, s.readPointer_of_toNat (BitVec.toNat_add z s.x)]
  · simp only [State.resolve, s.readPointer_of_toNat (Nat.mod_eq_of_lt z.isLt).symm, add_index_eq, pageDiffers_add_index]

/-- Settles O23: the eight branches are one rule. -/
theorem branchesFollowTheirFlag : Obligations.BranchesFollowTheirFlag :=
  ⟨branchRule (op := .bcc) (fun _ => rfl) fun _ => rfl, branchRule (op := .bcs) (fun _ => rfl) fun _ => rfl,
    branchRule (op := .beq) (fun _ => rfl) fun _ => rfl, branchRule (op := .bne) (fun _ => rfl) fun _ => rfl,
    branchRule (op := .bmi) (fun _ => rfl) fun _ => rfl, branchRule (op := .bpl) (fun _ => rfl) fun _ => rfl,
    branchRule (op := .bvc) (fun _ => rfl) fun _ => rfl, branchRule (op := .bvs) (fun _ => rfl) fun _ => rfl⟩

end Sys2Proof.Proofs
end

section
/-! SUPPORT. Read instructions and implied register steps in the words of the statements (30 R317, R330, R331): the forms of a read
instruction from the tables of the mnemonics, its rule once for every operation, and the rule of an implied instruction. -/

namespace Sys2Proof.Machine

open Sys2Proof.Claims

/-- The forms of a read instruction. -/
def ReadOp.row : ReadOp → Form → Option (Instr × Byte)
  | .lda => ldaRow
  | .ldx => ldxRow
  | .ldy => ldyRow
  | .adc => adcRow
  | .sbc => sbcRow
  | .cmp => cmpRow
  | .cpx => cpxRow
  | .cpy => cpyRow
  | .and => andRow
  | .ora => oraRow
  | .eor => eorRow
  | .bit => bitRow

/-- The forms of a read instruction: an immediate byte or a mode, with its shape and its encoding (files 40, 42, 43). -/
theorem read_of_row {op : ReadOp} {f : Form} {i : Instr} {b : Byte} (h : op.row f = some (i, b)) :
    encode i = b :: f.bytes ∧ ((∃ v, f = .imm v ∧ shapeOf i = some (.readImm op v)) ∨
      ∃ m, f = .mem m ∧ shapeOf i = some (.readMem op m)) := by
  cases f with
  | imm v => cases op <;> cases h <;> exact ⟨rfl, .inl ⟨v, rfl, rfl⟩⟩
  | acc => cases op <;> cases h
  | mem m =>
    cases op <;> cases m <;> cases h <;>
      exact ⟨by simp only [encode, Form.bytes, wordBytes_eq, BitVec.ofNat_eq_ofNat], .inr ⟨_, rfl, rfl⟩⟩

/-- Fetching the operand makes bus reads only (30 R317). -/
theorem operand_frame (f : Form) (s : State) : BusReadFrame s (f.operand s).2 := by
  cases f with
  | imm v => exact .refl s
  | acc => exact .refl s
  | mem m => exact (s.resolve_frame m).trans (State.rd_frame _ _)

/-- The cost of a read instruction on memory: the base of its mode, and the page-cross penalty of the modes that have it (30 R330,
R331). -/
theorem readCost_mem (m : Ea) (s : State) :
    (Form.mem m).readCost s = readBase m + if readPenalty m && (s.resolve m).crossed then 1 else 0 := by
  cases m <;> rfl

/-- What a read instruction does with its operand leaves `cycle` alone. -/
theorem ReadOp.run_cycle (op : ReadOp) (m : Byte) (s : State) : (op.run m s).cycle = s.cycle := by
  obtain ⟨a, x, y, p, e⟩ := op.run_regs m s
  rw [e]

/-- A read instruction runs its operation on the operand and charges its cost. -/
theorem exec_of_read_row {op : ReadOp} {f : Form} {i : Instr} {b : Byte} (h : op.row f = some (i, b)) (s : State) :
    exec i s = .next ((op.run (f.operand s).1 (f.operand s).2).charge (f.readCost s)) := by
  obtain ⟨-, ⟨v, rfl, hs⟩ | ⟨m, rfl, hs⟩⟩ := read_of_row h
  · rw [exec_of_shape hs]
    rfl
  · rw [exec_of_shape hs, readCost_mem]
    rfl

/-- THE RULE OF EVERY READ INSTRUCTION (30 R317, R330, R331), whatever words its operation is given in. -/
theorem readRule {op : ReadOp} {result : Byte → State → State} (hop : ∀ m s, op.run m s = result m s) :
    ReadRule op.row result := by
  intro f i b h
  obtain ⟨henc, -⟩ := read_of_row h
  refine ⟨henc, fun s => ⟨?_, operand_frame f s⟩⟩
  have hc : (f.operand s).2.cycle = s.cycle := by rw [(operand_frame f s).core]
  rw [exec_of_read_row h, State.charge, op.run_cycle, hc, hop]

/-- THE RULE OF AN IMPLIED INSTRUCTION (30 R303), whatever words its operation is given in. -/
theorem impliedRule {i : Instr} {b : Byte} {cost : Nat} {op effect : State → State} (henc : encode i = [b])
    (hexec : ∀ s, exec i s = implied cost op s) (hop : ∀ s, op s = effect s) (hc : ∀ s, (effect s).cycle = s.cycle) :
    ImpliedRule i b cost effect :=
  ⟨henc, fun s => by rw [hexec, implied, hop, State.charge, hc]⟩

/-- A write of `A` in the words of the statements (10 R100, R112), whatever words the byte is given in. -/
theorem State.setA_eq (s : State) {b c : Byte} (h : b = c) : s.setA b = { s with a := c, p := zn s.p c } := by
  rw [State.setA, setZN_eq_zn, h]

/-- A write of `X`, likewise. -/
theorem State.setX_eq (s : State) {b c : Byte} (h : b = c) : s.setX b = { s with x := c, p := zn s.p c } := by
  rw [State.setX, setZN_eq_zn, h]

/-- A write of `Y`, likewise. -/
theorem State.setY_eq (s : State) {b c : Byte} (h : b = c) : s.setY b = { s with y := c, p := zn s.p c } := by
  rw [State.setY, setZN_eq_zn, h]

/-- A step up by plain arithmetic (42 R459, R460). -/
theorem byte_add_one_eq (b : Byte) : b + 1 = BitVec.ofNat 8 (b.toNat + 1) := by bv_omega

/-- A step down by plain arithmetic (42 R462, R463). -/
theorem byte_sub_one_eq (b : Byte) : b - 1 = BitVec.ofNat 8 (b.toNat + 255) := by bv_omega

end Sys2Proof.Machine
end

section
/-! Settles O8 and O10. -/

namespace Sys2Proof.Proofs

open Sys2Proof.Machine Sys2Proof.Claims

/-- Settles O8: the three loads are one rule, their operation a register write with `setZN`. -/
theorem loadsWriteRegisterAndZN : Obligations.LoadsWriteRegisterAndZN :=
  ⟨readRule (op := .lda) fun _ s => s.setA_eq rfl, readRule (op := .ldx) fun _ s => s.setX_eq rfl,
    readRule (op := .ldy) fun _ s => s.setY_eq rfl⟩

/-- Settles O10: the ten are one rule; all but TXS write a register with `setZN`. -/
theorem transfersAndRegisterSteps : Obligations.TransfersAndRegisterSteps := by
  refine ⟨?tax, ?tay, ?txa, ?tya, ?tsx, ?txs, ?inx, ?iny, ?dex, ?dey⟩
  case tax => exact impliedRule rfl (fun _ => rfl) (fun s => s.setX_eq rfl) fun _ => rfl
  case tay => exact impliedRule rfl (fun _ => rfl) (fun s => s.setY_eq rfl) fun _ => rfl
  case txa => exact impliedRule rfl (fun _ => rfl) (fun s => s.setA_eq rfl) fun _ => rfl
  case tya => exact impliedRule rfl (fun _ => rfl) (fun s => s.setA_eq rfl) fun _ => rfl
  case tsx => exact impliedRule rfl (fun _ => rfl) (fun s => s.setX_eq rfl) fun _ => rfl
  case txs => exact impliedRule rfl (fun _ => rfl) (fun _ => rfl) fun _ => rfl
  case inx => exact impliedRule rfl (fun _ => rfl) (fun s => s.setX_eq (byte_add_one_eq s.x)) fun _ => rfl
  case iny => exact impliedRule rfl (fun _ => rfl) (fun s => s.setY_eq (byte_add_one_eq s.y)) fun _ => rfl
  case dex => exact impliedRule rfl (fun _ => rfl) (fun s => s.setX_eq (byte_sub_one_eq s.x)) fun _ => rfl
  case dey => exact impliedRule rfl (fun _ => rfl) (fun s => s.setY_eq (byte_sub_one_eq s.y)) fun _ => rfl

end Sys2Proof.Proofs
end

section
/-! SUPPORT. Pushes of a whole list of bytes (41 R430, R438). -/

namespace Sys2Proof.Claims

open Sys2Proof.Machine

/-- A run of pushes changes work RAM and `SP` only, and `SP` counts it modulo 256 (41 R438). -/
theorem foldl_push_core (s : State) (bs : List Byte) :
    bs.foldl State.push s = { s with ram := (bs.foldl State.push s).ram, sp := s.sp - BitVec.ofNat 8 bs.length } := by
  induction bs generalizing s with
  | nil => simp
  | cons b bs ih =>
    have hsp : s.sp - 1 - BitVec.ofNat 8 bs.length = s.sp - BitVec.ofNat 8 (bs.length + 1) := by
      rw [BitVec.sub_sub, BitVec.ofNat_add, BitVec.add_comm]
      rfl
    rw [List.foldl_cons, List.length_cons, ← hsp, ih]
    simp only [State.push_eq]

/-- The cell of one push is in page 1, whatever `SP` holds (41 R438). -/
theorem push_ram_outside_page (s : State) (b : Byte) {k : Nat} (hk : k < 0x100 ∨ 0x200 ≤ k) :
    Table.read (s.push b).ram 0 k = Table.read s.ram 0 k := by
  have := s.sp.isLt
  rw [State.push_eq]
  exact Table.read_write_other _ _ _ (by omega)

/-- A run of pushes writes page 1 only (41 R438). -/
theorem foldl_push_ram_outside_page (s : State) (bs : List Byte) {k : Nat} (hk : k < 0x100 ∨ 0x200 ≤ k) :
    Table.read (bs.foldl State.push s).ram 0 k = Table.read s.ram 0 k := by
  induction bs generalizing s with
  | nil => rfl
  | cons b bs ih => exact (ih (s.push b)).trans (push_ram_outside_page s b hk)

/-- A run of pushes after others: each byte stays where it was pushed while there are at most 256 in all. -/
theorem Pushed.foldl_push {s t : State} {bs : List Byte} (h : Pushed s t bs) (cs : List Byte)
    (hn : bs.length + cs.length ≤ 256) : Pushed s (cs.foldl State.push t) (bs ++ cs) := by
  induction cs generalizing t bs with
  | nil =>
    rw [List.append_nil]
    exact h
  | cons c cs ih =>
    rw [List.length_cons] at hn
    have hc : Pushed s (t.push c) (bs ++ [c]) := h.push (by omega) c
    rw [List.append_cons]
    exact ih hc (by rw [List.length_append, List.length_singleton]; omega)

end Sys2Proof.Claims
end

section
/-! Settles O11, O26 and O27. -/

namespace Sys2Proof.Proofs

open Sys2Proof.Machine Sys2Proof.Claims

/-- Settles O11: PHA is one push, PLA one pull and a write of `A` with `setZN`. -/
theorem pushAndPullAccumulator : Obligations.PushAndPullAccumulator := by
  refine ⟨rfl, rfl, fun s => ⟨(s.push s.a).charge 3, rfl, ?_, ?_⟩, fun s => ?_⟩
  · exact ((Pushed.nil s).push (Nat.zero_lt_succ _) s.a).congr rfl rfl
  · rw [State.push_eq]
    rfl
  · simp only [exec, execPla, implied, State.pull_eq, State.setA_eq _ rfl]
    rfl

/-- Settles O26, by the closed forms of the four primitives and the rule of a push. -/
theorem stackPrimitives : Obligations.StackPrimitives := by
  have sub_two : ∀ sp : Byte, sp - 1 - 1 = sp - 2 := fun sp => BitVec.sub_sub sp 1 1
  have add_two : ∀ sp : Byte, sp + 1 + 1 = sp + 2 := fun sp => BitVec.add_assoc sp 1 1
  refine ⟨fun s b => ⟨?push, ?pushFrame⟩, ?pull, fun s w => ⟨?push16, ?push16Frame⟩, fun s => ?pull16⟩
  case push => exact (Pushed.nil s).push (Nat.zero_lt_succ _) b
  case pushFrame => rw [State.push_eq]
  case pull => exact State.pull_eq
  case push16 => exact ((PushedOnly.nil s).push16 (Nat.zero_lt_succ _) w).pushed
  case push16Frame => rw [State.push16_eq, sub_two]
  case pull16 =>
    rw [State.pull16_eq, word_eq_le16, add_two]
    rfl

/-- Settles O27: each clause is a fact about a run of pushes, and 256 pushes move `SP` by 0 modulo 256. -/
theorem stackNeverLeavesPageOne : Obligations.StackNeverLeavesPageOne := by
  refine ⟨fun s bs => ⟨foldl_push_core s bs, fun k hk => foldl_push_ram_outside_page s bs hk, fun hlen => ?_⟩,
    fun s b hsp => ?_, fun s hsp => ?_⟩
  · obtain ⟨hsp, hcells, -⟩ := (Pushed.nil s).foldl_push bs (Nat.le_of_eq ((Nat.zero_add _).trans hlen))
    rw [List.nil_append, hlen] at hsp hcells
    exact ⟨hsp.trans (BitVec.sub_zero s.sp), hcells⟩
  · rw [State.push_eq, hsp]
    exact ⟨rfl, Table.read_write_same ..⟩
  · rw [State.pull_eq, hsp]
    rfl

end Sys2Proof.Proofs
end

section
/-! SUPPORT. The sums of 42_arithmetic.md in the words of the statements: `addc` with its byte, its carry and its overflow by plain
arithmetic (42 R451 to R453), and `compare` (42 R454). -/

namespace Sys2Proof.Machine

open Sys2Proof.Claims

/-- Bit 7 of a byte by its mask. -/
theorem getLsbD_seven_eq_mask (b : Byte) : b.getLsbD 7 = decide (b &&& 0x80#8 ≠ 0#8) := by
  revert b
  decide

/-- `addc` in the words of the statements (42 R451), whatever words its byte and its carry are given in. -/
theorem State.addc_eq (s : State) {m r : Byte} {carry : Prop} [Decidable carry]
    (hr : BitVec.ofNat 8 (addRaw s.a m s.p.c) = r) (hc : 256 ≤ addRaw s.a m s.p.c ↔ carry) :
    s.addc m = { s with a := r, p := { zn s.p r with
      c := decide carry, v := decide ((m ^^^ r) &&& (s.a ^^^ r) &&& 0x80#8 ≠ 0#8) } } := by
  simp only [State.addc, Status.addc, aluByte, alu_eq, getLsbD_seven_eq_mask, hr, hc]

/-- The raw sum that SBC makes is the exact difference, 256 higher: its bit 8 says that no borrow was needed (42 R453). -/
theorem addRaw_complement (a m : Byte) (c : Bool) :
    (addRaw a (0xFF#8 - m) c : Int) = 256 + ((a.toNat : Int) - (m.toNat : Int) - (1 - (c.toNat : Int))) := by
  have hm : (0xFF#8 - m).toNat = 255 - m.toNat := by bv_omega
  have := m.isLt
  rw [addRaw, hm]
  omega

/-- The byte of a raw sum that is 256 above a number is that number modulo 256. -/
theorem ofNat_eq_ofInt_of_add_256 {raw : Nat} {diff : Int} (h : (raw : Int) = 256 + diff) :
    BitVec.ofNat 8 raw = BitVec.ofInt 8 diff := by
  apply BitVec.eq_of_toNat_eq
  rw [BitVec.toNat_ofNat, BitVec.toNat_ofInt]
  omega

/-- `compare` in the words of the statements (42 R454): its raw value is 256 above the exact difference. -/
theorem Status.compare_eq (p : Status) (r m : Byte) : p.compare r m = { p with
    c := decide (m.toNat ≤ r.toNat), z := decide (r = m), n := decide (128 ≤ (256 + r.toNat - m.toNat) % 256) } := by
  have hr := r.isLt
  have hm := m.isLt
  have hraw : r.toNat + (0xFF - m.toNat) + 1 = 256 + r.toNat - m.toNat := by omega
  have hc : 256 ≤ 256 + r.toNat - m.toNat ↔ m.toNat ≤ r.toNat := by omega
  have hz : BitVec.ofNat 8 (256 + r.toNat - m.toNat) = 0 ↔ r = m := by
    rw [← BitVec.toNat_inj, ← BitVec.toNat_inj, BitVec.toNat_ofNat, BitVec.ofNat_eq_ofNat, BitVec.toNat_zero]
    omega
  have hn : (BitVec.ofNat 8 (256 + r.toNat - m.toNat)).msb = decide (128 ≤ (256 + r.toNat - m.toNat) % 256) := by
    rw [BitVec.msb_eq_decide, BitVec.toNat_ofNat]
  simp only [Status.compare, alu_eq, zn, hraw, hc, hz, hn]

end Sys2Proof.Machine
end

section
/-! Settles O13 and O15. -/

namespace Sys2Proof.Proofs

open Sys2Proof.Machine Sys2Proof.Claims

/-- Settles O13: both are `addc`, SBC of the complement of its operand, whose sum is the difference raised by 256. -/
theorem addAndSubtractWithCarry : Obligations.AddAndSubtractWithCarry := by
  refine ⟨readRule (op := .adc) fun m s => s.addc_eq ?adcByte Iff.rfl,
    readRule (op := .sbc) fun m s => s.addc_eq ?sbcByte ?sbcCarry⟩
  case adcByte => exact BitVec.eq_of_toNat_eq (by simp only [addRaw, BitVec.toNat_ofNat, Nat.mod_mod])
  case sbcByte => exact ofNat_eq_ofInt_of_add_256 (addRaw_complement s.a m s.p.c)
  case sbcCarry =>
    have hraw := addRaw_complement s.a m s.p.c
    omega

/-- Settles O15: the three are one comparison with a register each. -/
theorem comparesSetCarryZeroNegative : Obligations.ComparesSetCarryZeroNegative :=
  ⟨readRule (op := .cmp) fun m s => congrArg (fun p => { s with p }) (s.p.compare_eq s.a m),
    readRule (op := .cpx) fun m s => congrArg (fun p => { s with p }) (s.p.compare_eq s.x m),
    readRule (op := .cpy) fun m s => congrArg (fun p => { s with p }) (s.p.compare_eq s.y m)⟩

end Sys2Proof.Proofs
end

section
/-! Settles O17: AND, ORA and EOR are a write of `A`, and BIT is `bitTest`, its two bits of `M` by plain arithmetic (43 R480 to R483). -/

namespace Sys2Proof.Machine

/-- A bit of a byte by plain arithmetic. -/
theorem getLsbD_eq_decide_div (b : Byte) (k : Nat) : b.getLsbD k = decide (b.toNat / 2 ^ k % 2 = 1) :=
  Nat.testBit_eq_decide_div_mod_eq

/-- `bitTest` in the words of the statements (43 R483). -/
theorem Status.bitTest_eq (p : Status) (a m : Byte) : p.bitTest a m = { p with
    z := decide (a &&& m = 0#8), n := decide (m.toNat / 128 % 2 = 1), v := decide (m.toNat / 64 % 2 = 1) } := by
  rw [Status.bitTest, getLsbD_eq_decide_div m 7, getLsbD_eq_decide_div m 6, beq_eq_decide]
  rfl

end Sys2Proof.Machine

namespace Sys2Proof.Proofs

open Sys2Proof.Machine Sys2Proof.Claims

/-- Settles O17: the four are one rule; three write `A` with `setZN`, and BIT writes the flags only. -/
theorem logicAndBitTest : Obligations.LogicAndBitTest :=
  ⟨readRule (op := .and) fun _ s => s.setA_eq rfl, readRule (op := .ora) fun _ s => s.setA_eq rfl,
    readRule (op := .eor) fun _ s => s.setA_eq rfl,
    readRule (op := .bit) fun m s => congrArg (fun p => { s with p }) (s.p.bitTest_eq s.a m)⟩

end Sys2Proof.Proofs
end

section
/-! SUPPORT. What was pushed, read back (41 R430 to R433), and the entry of BRK as its pushes and its vector fetch: the facts that
returns and entries share. -/

namespace Sys2Proof.Claims

open Sys2Proof.Machine

/-- Pulling as many bytes as were pushed brings `SP` back, whatever wraps on the way (41 R438). -/
theorem Pushed.sp_add_length {s t : State} {bs : List Byte} (h : Pushed s t bs) :
    t.sp + BitVec.ofNat 8 bs.length = s.sp := by
  obtain ⟨hsp, -, -⟩ := h
  rw [hsp, BitVec.sub_add_cancel]

/-- The stack gives back what was pushed, the last byte first (41 R430, R431). -/
theorem Pushed.stackByte_eq {s t : State} {bs : List Byte} (h : Pushed s t bs) {j k : Nat} (hjk : j + k = bs.length)
    (hk : 0 < k) : stackByte t k = bs.getD j 0 := by
  obtain ⟨hsp, hcells, -⟩ := h
  have hcell : t.sp + BitVec.ofNat 8 k = s.sp - BitVec.ofNat 8 j := by
    rw [hsp, ← hjk, BitVec.ofNat_add, ← BitVec.sub_sub, BitVec.sub_add_cancel]
  rw [stackByte, hcell]
  exact hcells j (by omega)

theorem le16_highLow (w : Addr) : le16 (BitVec.ofNat 8 (w.toNat % 256)) (BitVec.ofNat 8 (w.toNat / 256)) = w := by
  rw [← loByte_eq, ← hiByte_eq, ← word_eq_le16, word_lo_hi]

/-- An address pushed before other bytes is found above them (41 R432, R433). -/
theorem Pushed.le16_stackByte {s t : State} {w : Addr} {bs : List Byte} (h : Pushed s t (highLow w ++ bs)) :
    le16 (stackByte t (bs.length + 1)) (stackByte t (bs.length + 2)) = w := by
  have hlen : (highLow w ++ bs).length = bs.length + 2 := rfl
  rw [h.stackByte_eq (j := 1) (by omega) (by omega), h.stackByte_eq (j := 0) (by omega) (by omega)]
  exact le16_highLow w

/-- An address raised modulo 65536. -/
theorem ofNat_toNat_add (w : Addr) (n : Nat) : BitVec.ofNat 16 (w.toNat + n) = w + BitVec.ofNat 16 n := by
  rw [BitVec.ofNat_add, BitVec.ofNat_toNat, BitVec.setWidth_eq]

theorem sub_one_eq (w : Addr) : w - 1 = BitVec.ofNat 16 (w.toNat + 65535) := by
  rw [ofNat_toNat_add]
  exact BitVec.sub_eq_add_neg w 1

/-- The flags come back from the byte PHP and BRK push (10 R104). -/
theorem flagsOf_statusByte (p : Status) : flagsOf (statusByte p) = p := by
  obtain ⟨n, v, d, i, z, c⟩ := p
  revert n v d i z c
  decide

/-- The flags come back from the byte an interrupt entry pushes (60 R800). -/
theorem flagsOf_entryByte (p : Status) : flagsOf (entryByte p) = p := by
  obtain ⟨n, v, d, i, z, c⟩ := p
  revert n v d i z c
  decide

/-- A vector fetch and 7 cycles after the pushes and the write of `I` make an entry (60 R800). -/
theorem entryTaken_jumpVector {s u : State} {bs : List Byte} {setI : Bool} (h : Pushed s u bs)
    (hu : u = { s with ram := u.ram, sp := u.sp, p := { s.p with i := s.p.i || setI } }) (vec : Nat) :
    EntryTaken s vec bs setI ((u.jumpVector (BitVec.ofNat 16 vec)).charge 7) := by
  refine ⟨u, h, hu, vectorTaken_jumpVector u vec 7, ?_⟩
  obtain ⟨v, hf, hv⟩ := u.jumpVector_frame (BitVec.ofNat 16 vec)
  rw [State.charge_cycle, hv, hf.core, hu]

/-- THE SOFTWARE ENTRY OF BRK in the words of the statements (44 R514, 60 R802). -/
theorem entryTaken_softwareEntry (s : State) :
    EntryTaken s 0xFFFE (highLow (s.pc + 1) ++ [statusByte s.p]) true (s.softwareEntry.charge 7) := by
  have hpc := (PushedOnly.nil s).push16 (Nat.zero_lt_succ _) (s.pc + 1)
  obtain ⟨hpushed, hcore⟩ := hpc.push (by simp [highLow]) (statusByte s.p)
  rw [State.softwareEntry, pushedByInstr_eq_statusByte]
  refine entryTaken_jumpVector ?_ ?_ 0xFFFE
  · exact hpushed.congr rfl rfl
  · rw [hcore, Bool.or_true]

/-- After an entry the pushed bytes are on the stack, and `A`, `X`, `Y` are as before: the vector fetch makes bus reads only. -/
theorem EntryTaken.pushed_and_registers {s t : State} {vec : Nat} {bs : List Byte} {setI : Bool}
    (h : EntryTaken s vec bs setI t) : Pushed s t bs ∧ t.a = s.a ∧ t.x = s.x ∧ t.y = s.y := by
  obtain ⟨u, hpushed, hu, ⟨ht, hframe⟩, -⟩ := h
  rw [hframe.core] at ht
  refine ⟨hpushed.congr ?_ ?_, ?_⟩
  · rw [ht]
  · rw [ht]
  · rw [ht, hu]
    exact ⟨rfl, rfl, rfl⟩

end Sys2Proof.Claims
end

section
/-! Settles O20, O21 and O22. -/

namespace Sys2Proof.Proofs

open Sys2Proof.Machine Sys2Proof.Claims

/-- Settles O20: JSR is a `push16` and RTS a `pull16`, by the rules of the stack primitives. -/
theorem callAndReturn : Obligations.CallAndReturn := by
  obtain ⟨-, -, hpush16, hpull16⟩ := stackPrimitives
  refine ⟨fun a => congrArg _ (wordBytes_eq a), rfl, fun a s => ?jsr, fun s => ?rts⟩
  case jsr =>
    obtain ⟨hpushed, hcore⟩ := hpush16 s (s.pc - 1)
    refine ⟨({ s.push16 (s.pc - 1) with pc := a } : State).charge 6, rfl, ?_, ?_⟩
    · rw [← sub_one_eq]
      exact hpushed.congr rfl rfl
    · rw [hcore]
      rfl
  case rts =>
    rw [ofNat_toNat_add]
    simp only [exec, execRts, implied, hpull16]
    rfl

/-- Settles O21: BRK is the software entry. -/
theorem brkTraps : Obligations.BrkTraps := by
  refine ⟨rfl, fun s => ⟨_, rfl, ?_⟩⟩
  rw [ofNat_toNat_add]
  exact entryTaken_softwareEntry s

/-- RTI undoes every entry that pushed a `PC` and a byte that holds the flags (44 R513, 60 R811). -/
theorem rti_undoes_entry {s t : State} {vec : Nat} {w : Addr} {b : Byte} {setI : Bool}
    (h : EntryTaken s vec (highLow w ++ [b]) setI t) (hb : flagsOf b = s.p) :
    ∃ u, exec .rti t = .next u ∧ u.pc = w ∧ u.sp = s.sp ∧ u.p = s.p ∧ u.a = s.a ∧ u.x = s.x ∧ u.y = s.y ∧
      u.cycle = s.cycle + 13 := by
  obtain ⟨-, -, -, -, -, -, hrti⟩ := pushAndPullStatus
  obtain ⟨hpushed, ha, hx, hy⟩ := h.pushed_and_registers
  obtain ⟨-, -, -, -, hcycle⟩ := h
  have hp : flagsOf (stackByte t 1) = s.p := by
    rw [hpushed.stackByte_eq (j := 2) rfl Nat.one_pos]
    exact hb
  refine ⟨_, hrti t, hpushed.le16_stackByte, hpushed.sp_add_length, hp, ha, hx, hy, ?_⟩
  dsimp only
  rw [hcycle]

/-- Settles O22: a return pulls the bytes the call or the entry pushed, and the flags are all in the pushed byte. -/
theorem returnsUndoEntriesAndCalls : Obligations.ReturnsUndoEntriesAndCalls := by
  intro s
  refine ⟨fun a => ?call, ?nmi, fun hi => ?irq, ?brk⟩
  case call =>
    obtain ⟨-, -, hjsr, hrts⟩ := callAndReturn
    obtain ⟨t, ht, hpushed, hcore⟩ := hjsr a s
    refine ⟨t, _, ht, hrts t, ?_⟩
    rw [← sub_one_eq] at hpushed
    have hpc : le16 (stackByte t 1) (stackByte t 2) = s.pc - 1 := Pushed.le16_stackByte (bs := []) hpushed
    have hback : BitVec.ofNat 16 ((s.pc - 1).toNat + 1) = s.pc :=
      (ofNat_toNat_add ..).trans (BitVec.sub_add_cancel s.pc 1)
    have hsp : t.sp + 2 = s.sp := hpushed.sp_add_length
    rw [hpc, hback, hsp, hcore]
  case nmi => exact rti_undoes_entry (entryTaken_enter s 0xFFFA true true) (flagsOf_entryByte s.p)
  case irq =>
    have hirq : s.doIRQ = s.enter irqVector true true := by
      rw [State.doIRQ, hi]
      rfl
    rw [hirq]
    exact rti_undoes_entry (entryTaken_enter s 0xFFFE true true) (flagsOf_entryByte s.p)
  case brk =>
    obtain ⟨u, hu, hregs⟩ := rti_undoes_entry (entryTaken_softwareEntry s) (flagsOf_statusByte s.p)
    exact ⟨_, u, rfl, hu, hregs⟩

end Sys2Proof.Proofs
end

section
/-! SUPPORT. The CPU step of an instruction of one byte (30 R302, R303): the fetch is one bus read at `PC`. -/

namespace Sys2Proof.Machine

open Sys2Proof.Claims

/-- Fetching an instruction of one byte is one bus read at `PC` (30 R302). -/
theorem State.fetch_of_encode_singleton {i : Instr} {op : Byte} (hi : i.wf = true) (henc : encode i = [op]) {s : State}
    (hop : (s.rd s.pc).1 = op) : s.fetch = (i, { (s.rd s.pc).2 with pc := s.pc + 1 }) := by
  have hpc : (s.rd s.pc).2.pc = s.pc := by rw [(s.rd_frame s.pc).core]
  have hbyte : s.fetchByte = (op, { (s.rd s.pc).2 with pc := s.pc + 1 }) := by simp only [State.fetchByte, hpc, hop]
  refine State.fetch_of_bytes hi ?_
  rw [henc, List.length_singleton, State.fetchBytes, hbyte]
  rfl

/-- THE CPU STEP OF AN IMPLIED INSTRUCTION (30 R302, R303): one bus read, the rule's effect, the audio unit's cycles. -/
theorem State.cpuStep_of_impliedRule {i : Instr} {op : Byte} {cost : Nat} {effect : State → State}
    (hrule : ImpliedRule i op cost effect) (hi : i.wf = true) {s : State} (hop : (s.rd s.pc).1 = op) :
    s.cpuStep = .next (s.tickApu { effect { (s.rd s.pc).2 with pc := s.pc + 1 } with cycle := s.cycle + cost }) := by
  obtain ⟨henc, hexec⟩ := hrule
  have hcycle : (s.rd s.pc).2.cycle = s.cycle := by rw [(s.rd_frame s.pc).core]
  rw [State.cpuStep, State.fetch_of_encode_singleton hi henc hop, hexec]
  dsimp only
  rw [hcycle]

/-- A bus read and any change of the audio unit's own state stay within the frame of a bus read. -/
theorem BusReadFrame.withApu {s t : State} (h : BusReadFrame s t) (u : Apu) : BusReadFrame s { t with apu := u } where
  core := by rw [h.core]
  ppu := h.ppu
  cart := h.cart

end Sys2Proof.Machine

namespace Sys2Proof.Claims

open Sys2Proof.Machine

/-- THE RESET ENTRY in the words of the statements (60 R803): no `PC` is pushed. -/
theorem entryTaken_doReset (s : State) : EntryTaken s 0xFFFC (if s.params.resetPushesP then [entryByte s.p] else [])
    s.params.intEntrySetsI s.doReset :=
  entryTaken_enter s 0xFFFC false s.params.resetPushesP

/-- An illegal opcode under policy reset (45 R558). -/
theorem exec_illegal_of_reset {s : State} (h : s.params.illegalPolicy = .reset) (op : Byte) :
    exec (.illegal op) s = .next s.doReset := by
  rw [exec, execIllegal, h]

/-- An illegal opcode under policy fault (45 R558, 60 R815). -/
theorem exec_illegal_of_fault {s : State} (h : s.params.illegalPolicy = .fault) (op : Byte) :
    exec (.illegal op) s = .fault (.illegalOpcode op) := by
  rw [exec, execIllegal, h]

end Sys2Proof.Claims
end

section
/-! Settles O24 and O25. -/

namespace Sys2Proof.Proofs

open Sys2Proof.Machine Sys2Proof.Claims

/-- Settles O24: the eight are one rule, and the step of NOP is its one fetch and the audio unit's two cycles. -/
theorem flagInstructionsAndNop : Obligations.FlagInstructionsAndNop := by
  have hnop : ImpliedRule .nop 0xEA 2 (fun s => s) := impliedRule rfl (fun _ => rfl) (fun _ => rfl) fun _ => rfl
  refine ⟨?clc, ?sec, ?cli, ?sei, ?cld, ?sed, ?clv, hnop, fun s hop => ?step⟩
  case step =>
    refine ⟨_, State.cpuStep_of_impliedRule hnop rfl hop, rfl, rfl, ?_⟩
    have hframe := s.rd_frame s.pc
    have hback : { (s.rd s.pc).2 with pc := s.pc, cycle := s.cycle } = (s.rd s.pc).2 := by rw [hframe.core]
    exact hback ▸ hframe.withApu _
  all_goals exact impliedRule rfl (fun _ => rfl) (fun _ => rfl) fun _ => rfl

/-- Settles O25, by the two values of the policy: the reset entry or the fault. -/
theorem illegalOpcodesResetOrFault : Obligations.IllegalOpcodesResetOrFault := fun op s =>
  ⟨fun h => ⟨s.doReset, exec_illegal_of_reset h op, entryTaken_doReset s⟩, fun h => exec_illegal_of_fault h op⟩

end Sys2Proof.Proofs
end

section
/-! SUPPORT. The PPU registers in the words of the statements (46 R603 to R612): the status byte and the places of the bits in `t`
(D23), the addresses of a $2007 access and the step of `v` by plain arithmetic. -/

namespace Sys2Proof.Machine

/-- The status byte by its three flags (46 R604). -/
theorem Ppu.statusByte_eq (p : Ppu) : p.statusByte =
    BitVec.ofNat 8 (128 * p.vblank.toNat + 64 * p.sprite0Hit.toNat + 32 * p.spriteOverflow.toNat) := by
  unfold Ppu.statusByte
  generalize p.vblank = vblank, p.sprite0Hit = hit, p.spriteOverflow = overflow
  revert vblank hit overflow
  decide

/-- The bits of a scroll address are its 15 bits, and nothing above them. -/
theorem getLsbD_eq_of_fifteen {u : VAddr} {f : Nat → Bool} (hlow : ∀ k, k < 15 → u.getLsbD k = f k)
    (hhigh : ∀ k, 15 ≤ k → f k = false) (k : Nat) : u.getLsbD k = f k := by
  by_cases hk : k < 15
  · exact hlow k hk
  · rw [u.getLsbD_of_ge k (by omega), hhigh k (by omega)]

section

variable (t : VAddr) (d : Byte)

/-- `t` after a $2000 write (46 R603). -/
theorem getLsbD_ctrlWrite : ∀ k, ((t &&& 0x73FF#15) ||| ((d &&& 0x03#8).setWidth 15 <<< 10)).getLsbD k =
    if k = 10 then d.getLsbD 0 else if k = 11 then d.getLsbD 1 else t.getLsbD k := by
  refine getLsbD_eq_of_fifteen (fun k hk => ?_) fun k hk => ?_
  · interval_cases k <;> simp
  · rw [if_neg (by omega), if_neg (by omega), t.getLsbD_of_ge k hk]

/-- `t` after the first $2005 write (46 R609). -/
theorem getLsbD_firstScrollWrite : ∀ k, ((t &&& 0x7FE0#15) ||| (d >>> 3).setWidth 15).getLsbD k =
    if k < 5 then d.getLsbD (k + 3) else t.getLsbD k := by
  refine getLsbD_eq_of_fifteen (fun k hk => ?_) fun k hk => ?_
  · interval_cases k <;> simp
  · rw [if_neg (by omega), t.getLsbD_of_ge k hk]

/-- `t` after the second $2005 write (46 R609). -/
theorem getLsbD_secondScrollWrite : ∀ k,
    ((t &&& 0x0C1F#15) ||| ((d &&& 0x07#8).setWidth 15 <<< 12) ||| ((d >>> 3).setWidth 15 <<< 5)).getLsbD k =
      if 12 ≤ k ∧ k < 15 then d.getLsbD (k - 12) else if 5 ≤ k ∧ k < 10 then d.getLsbD (k - 2) else t.getLsbD k := by
  refine getLsbD_eq_of_fifteen (fun k hk => ?_) fun k hk => ?_
  · interval_cases k <;> simp
  · rw [if_neg (by omega), if_neg (by omega), t.getLsbD_of_ge k hk]

/-- `t` after the first $2006 write (46 R610). -/
theorem getLsbD_firstAddrWrite : ∀ k, ((t &&& 0x00FF#15) ||| ((d &&& 0x3F#8).setWidth 15 <<< 8)).getLsbD k =
    if 8 ≤ k ∧ k < 14 then d.getLsbD (k - 8) else if k = 14 then false else t.getLsbD k := by
  refine getLsbD_eq_of_fifteen (fun k hk => ?_) fun k hk => ?_
  · interval_cases k <;> simp
  · rw [if_neg (by omega), if_neg (by omega), t.getLsbD_of_ge k hk]

/-- `t` after the second $2006 write (46 R610). -/
theorem getLsbD_secondAddrWrite : ∀ k, ((t &&& 0x7F00#15) ||| d.setWidth 15).getLsbD k =
    if k < 8 then d.getLsbD k else t.getLsbD k := by
  refine getLsbD_eq_of_fifteen (fun k hk => ?_) fun k hk => ?_
  · interval_cases k <;> simp
  · rw [if_neg (by omega), t.getLsbD_of_ge k hk]

end

theorem fineX_eq (d : Byte) : d.setWidth 3 = BitVec.ofNat 3 (d.toNat % 8) :=
  BitVec.eq_of_toNat_eq (by rw [BitVec.toNat_setWidth, BitVec.toNat_ofNat, Nat.mod_mod])

/-- The PPU bus address of a $2007 access (46 R611, R612). -/
theorem dataAddress_eq (v : VAddr) : v.setWidth 14 = BitVec.ofNat 14 (v.toNat % 0x4000) :=
  BitVec.eq_of_toNat_eq (by rw [BitVec.toNat_setWidth, BitVec.toNat_ofNat, Nat.mod_mod])

/-- The memory under a palette address: bit 12, which every such address has, is cleared (46 R612, D25). -/
theorem underPalette_eq {a : PpuAddr} (h : 0x3F00 ≤ a.toNat) : a &&& 0x2FFF#14 = BitVec.ofNat 14 (a.toNat - 0x1000) := by
  have key : ∀ b : Byte, (0x3F00#14 + b.setWidth 14) &&& 0x2FFF#14 = 0x2F00#14 + b.setWidth 14 := by decide
  have ha : a = 0x3F00#14 + (BitVec.ofNat 8 (a.toNat - 0x3F00)).setWidth 14 := by bv_omega
  rw [ha, key]
  bv_omega

/-- The step of `v` after a $2007 access (46 R611, R612). -/
theorem Ppu.v_add_addrInc (p : Ppu) : p.v + p.addrInc =
    BitVec.ofNat 15 (p.v.toNat + if p.ctrl.toNat / 4 % 2 = 1 then 32 else 1) := by
  have hbit : p.ctrl.getLsbD 2 = decide (p.ctrl.toNat / 4 % 2 = 1) := getLsbD_eq_decide_div p.ctrl 2
  simp only [Ppu.addrInc, hbit, decide_eq_true_eq]
  split <;> simp [BitVec.ofNat_add]

/-- A $2007 access moves `v` and nothing else, by the arithmetic of the PPU before the access (46 R611, R612). -/
theorem State.advanceV_eq (s : State) : s.advanceV = { s with ppu := { s.ppu with
    v := BitVec.ofNat 15 (s.ppu.v.toNat + if s.ppu.ctrl.toNat / 4 % 2 = 1 then 32 else 1) } } := by
  rw [State.advanceV, Ppu.v_add_addrInc]

/-- What a $2007 read does after its PPU bus read, which moved the cartridge's own state alone (46 R612). -/
theorem State.advanceV_readBuf {s u : State} (hu : ∃ c, u = { s with cart := c }) (b : Byte) :
    ({ u with ppu := { u.ppu with readBuf := b } } : State).advanceV = { u with ppu := { s.ppu with
      readBuf := b, v := BitVec.ofNat 15 (s.ppu.v.toNat + if s.ppu.ctrl.toNat / 4 % 2 = 1 then 32 else 1) } } := by
  obtain ⟨c, rfl⟩ := hu
  exact State.advanceV_eq _

end Sys2Proof.Machine
end

section
/-! Settles O31 to O35. -/

namespace Sys2Proof.Proofs

open Sys2Proof.Machine Sys2Proof.Claims

/-- Settles O31, register by register. -/
theorem ppuRegisterReads : Obligations.PpuRegisterReads := fun s =>
  ⟨congrArg (·, _) s.ppu.statusByte_eq, rfl, rfl, rfl, rfl, rfl⟩

/-- Settles O32, register by register. -/
theorem controlMaskStatusWrites : Obligations.ControlMaskStatusWrites := by
  refine fun s d => ⟨⟨_, rfl, getLsbD_ctrlWrite s.ppu.t d⟩, ?mask, rfl⟩
  have hbg : decide (d.toNat / 8 % 2 = 1) = d.getLsbD 3 := (getLsbD_eq_decide_div d 3).symm
  have hspr : decide (d.toNat / 16 % 2 = 1) = d.getLsbD 4 := (getLsbD_eq_decide_div d 4).symm
  rw [Bool.decide_or, hbg, hspr]
  rfl

/-- Settles O33: the three registers are one write, one write of a table cell with a step, and one read. -/
theorem oamPort : Obligations.OamPort := by
  refine fun s d => ⟨rfl, ⟨Table.write s.ppu.oam 0 s.ppu.oamAddr.toNat d, ?write, fun k => ?cells⟩, rfl⟩
  case write =>
    rw [← byte_add_one_eq]
    rfl
  case cells =>
    rw [Table.read_write]
    simp only [eq_comm]

/-- Settles O34, by the two values of `w`. -/
theorem scrollAndAddressWrites : Obligations.ScrollAndAddressWrites := by
  intro s d
  rw [← fineX_eq]
  refine ⟨fun hw => ?_, fun hw => ?_, fun hw => ?_, fun hw => ?_⟩
  · exact ⟨_, if_neg (ne_true_of_eq_false hw), getLsbD_firstScrollWrite s.ppu.t d⟩
  · exact ⟨_, if_pos hw, getLsbD_secondScrollWrite s.ppu.t d⟩
  · exact ⟨_, if_neg (ne_true_of_eq_false hw), getLsbD_firstAddrWrite s.ppu.t d⟩
  · exact ⟨_, if_pos hw, getLsbD_secondAddrWrite s.ppu.t d⟩

/-- Settles O35: the three are the PPU bus at `v` modulo 0x4000, then the step of `v`, which no PPU bus access looks at. -/
theorem dataPort : Obligations.DataPort := by
  intro s d a v'
  have ha : s.ppu.v.setWidth 14 = a := dataAddress_eq s.ppu.v
  have hrd : s.rd 0x2007#16 = s.readData := rfl
  have hwr : s.wr 0x2007#16 d = s.writeData d := rfl
  rw [hrd, hwr, State.readData, State.writeData, ha]
  refine ⟨?write, fun h => ?lower, fun h => ?palette⟩
  case write =>
    obtain ⟨c, cr, bg, sp, hw, -⟩ := s.ppuWrite_snd a d
    rw [State.advanceV_eq, hw]
  case lower =>
    obtain ⟨c, hc, -⟩ := s.ppuRead_snd a
    rw [if_neg (Nat.not_le.2 h)]
    exact congrArg (Prod.mk _) (State.advanceV_readBuf ⟨c, hc⟩ _)
  case palette =>
    obtain ⟨c, hc, -⟩ := s.ppuReadUnder_snd (BitVec.ofNat 14 (a.toNat - 0x1000))
    have hcell : s.ppuRead a = ((s.ppu.paletteRead a).setWidth 8, s) := if_pos h
    rw [underPalette_eq h, if_pos h, hcell]
    exact congrArg (Prod.mk _) (State.advanceV_readBuf ⟨c, hc⟩ _)

end Sys2Proof.Proofs
end

section
/-! SUPPORT. An OAM DMA from the two quiet places of the CPU bus, work RAM and the reference cartridge's space (46 R620, 20 R201,
R238), and the store that starts one (40 R403 to R405). -/

namespace Sys2Proof.Machine

open Sys2Proof.Claims

/-- The place in the page of the byte that an OAM DMA puts in OAM byte `k` (46 R620). -/
theorem dmaSource_lands (a : Byte) {k : Nat} (hk : k < 256) : (a.toNat + (k + 256 - a.toNat) % 256) % 256 = k := by
  have := a.isLt
  omega

/-- An OAM DMA from a page that reads as the bytes `b` without a side effect while work RAM and the cartridge are as in `s`: cell by
cell of OAM (46 R620). -/
theorem State.wr_dma_of_quiet {s : State} {d : Byte} (b : Nat → Byte)
    (h : ∀ i, i < 256 → ∀ u : State, u.ram = s.ram → u.cart = s.cart →
      u.rd (BitVec.ofNat 16 (256 * d.toNat + i)) = (b i, u)) :
    s.wr 0x4014#16 d = { s with ppu := { s.ppu with oam := (s.wr 0x4014#16 d).ppu.oam } } ∧
    ∀ k, k < 256 → Table.read (s.wr 0x4014#16 d).ppu.oam 0 k = b ((k + 256 - s.ppu.oamAddr.toNat) % 256) := by
  obtain ⟨hcore, hoam⟩ := s.dma_of_quiet d b fun i hi o a => dma_address hi d ▸ h i hi _ rfl rfl
  refine ⟨hcore, fun k hk => ?_⟩
  rw [← hoam _ (Nat.mod_lt _ (by decide)), dmaSource_lands _ hk]

theorem dmaAddress_toNat (d : Byte) {i : Nat} (hi : i < 256) :
    (BitVec.ofNat 16 (256 * d.toNat + i)).toNat = 256 * d.toNat + i := by
  have := d.isLt
  rw [BitVec.toNat_ofNat]
  omega

/-- An OAM DMA from a page of work RAM (20 R201, 46 R620). -/
theorem State.wr_dma_ram (s : State) {d : Byte} (hd : d.toNat < 0x20) :
    s.wr 0x4014#16 d = { s with ppu := { s.ppu with oam := (s.wr 0x4014#16 d).ppu.oam } } ∧
    ∀ k, k < 256 → Table.read (s.wr 0x4014#16 d).ppu.oam 0 k =
      Table.read s.ram 0 ((256 * d.toNat + (k + 256 - s.ppu.oamAddr.toNat) % 256) % 0x800) := by
  refine State.wr_dma_of_quiet (fun i => Table.read s.ram 0 ((256 * d.toNat + i) % 0x800)) fun i hi u hram _ => ?_
  have ha := dmaAddress_toNat d hi
  rw [u.rd_ram (by omega), ha, hram]

/-- An OAM DMA from a page of the reference cartridge's space (20 R238, 46 R620, D38). -/
theorem State.wr_dma_reference {s : State} {r : RefCart} (hr : s.cart = .reference r) {d : Byte} (hd : 0x41 ≤ d.toNat) :
    s.wr 0x4014#16 d = { s with ppu := { s.ppu with oam := (s.wr 0x4014#16 d).ppu.oam } } ∧
    ∀ k, k < 256 → Table.read (s.wr 0x4014#16 d).ppu.oam 0 k =
      if 0x80 ≤ d.toNat then Table.read r.prg 0 (256 * d.toNat + (k + 256 - s.ppu.oamAddr.toNat) % 256 - 0x8000) else 0 := by
  refine State.wr_dma_of_quiet (fun i => if 0x80 ≤ d.toNat then Table.read r.prg 0 (256 * d.toNat + i - 0x8000) else 0)
    fun i hi u _ hcart => ?_
  have ha := dmaAddress_toNat d hi
  have hprg : 0x8000 ≤ 256 * d.toNat + i ↔ 0x80 ≤ d.toNat := by omega
  rw [u.rd_reference (hcart.trans hr) (by omega), ha]
  simp only [hprg]

/-- A store whose effective address is 0x4014 (46 R620). -/
theorem exec_store_dma {op : StoreOp} {m : Ea} {i : Instr} {b : Byte} (h : op.row (.mem m) = some (i, b)) {s : State}
    (hea : (s.resolve m).ea = 0x4014#16) : exec i s = .next { s.wr 0x4014#16 (op.reg s) with
      cycle := s.cycle + storeCost m + (if s.cycle % 2 = 1 then 514 else 513) } := by
  obtain ⟨-, m', hm, hrule⟩ := storeRule op _ i b h
  cases hm
  obtain ⟨-, hexec, -⟩ := hrule s
  rw [hexec, hea]
  rfl

end Sys2Proof.Machine
end

section
/-! Settles O37. -/

namespace Sys2Proof.Proofs

open Sys2Proof.Machine Sys2Proof.Claims

/-- Settles O37: the states between the transfers are `State.dmaTo`, and each store is one rule. -/
theorem oamDma : Obligations.OamDma := by
  refine ⟨fun s d => ⟨?frame, ?oamAddr, ⟨s.dmaTo d, rfl, (s.wr_dma d).symm, fun i hi => ?transfer⟩, s.wr_dma_ram,
    fun r hr hd => State.wr_dma_reference hr hd⟩, fun s m i op reg hea hrow => ?store⟩
  case frame =>
    rw [s.wr_dma]
    exact (s.dma_frame d).core
  case oamAddr =>
    rw [s.wr_dma, State.dmaTo_oamAddr]
    exact BitVec.add_zero _
  case transfer =>
    rw [s.wr_dma, ← dma_address hi]
    exact ⟨s.dmaTo_succ d i, s.dmaTo_oam d (Nat.le_refl 256) hi⟩
  case store =>
    obtain ⟨hrow, rfl⟩ | ⟨hrow, rfl⟩ | ⟨hrow, rfl⟩ := hrow
    · exact exec_store_dma (op := .sta) hrow hea
    · exact exec_store_dma (op := .stx) hrow hea
    · exact exec_store_dma (op := .sty) hrow hea

end Sys2Proof.Proofs
end

section
/-! SUPPORT. The bit operations of 47_ppu_background.md by plain arithmetic: a run of mask bits keeps a digit, an OR of digits in
different places is their sum, an XOR with one bit turns that bit over. -/

namespace Sys2Proof.Machine

/-- A mask of `l` ones above `k` zeros keeps one digit. -/
theorem toNat_and_mask {w : Nat} (x : BitVec w) (k l : Nat) {m : BitVec w} (hm : m.toNat = (2 ^ l - 1) <<< k) :
    (x &&& m).toNat = x.toNat / 2 ^ k % 2 ^ l * 2 ^ k := by
  rw [BitVec.toNat_and, hm, ← Nat.shiftRight_eq_div_pow, ← Nat.and_two_pow_sub_one_eq_mod, ← Nat.shiftLeft_eq,
    Nat.shiftLeft_and_distrib]
  refine Nat.eq_of_testBit_eq fun i => ?_
  by_cases hi : k ≤ i <;> simp [Nat.testBit_and, Nat.testBit_shiftLeft, hi]

/-- A low part placed under a multiple of `2 ^ i`. -/
theorem toNat_or_of_dvd_of_lt {w : Nat} {x y : BitVec w} (i : Nat) (hx : 2 ^ i ∣ x.toNat) (hy : y.toNat < 2 ^ i) :
    (x ||| y).toNat = x.toNat + y.toNat := by
  obtain ⟨a, ha⟩ := hx
  rw [BitVec.toNat_or, ha, Nat.two_pow_add_eq_or_of_lt hy]

/-- An XOR with bit `k` keeps what is under and above the bit, and turns the bit over. -/
theorem toNat_xor_bit {w : Nat} (x : BitVec w) (k : Nat) {m : BitVec w} (hm : m.toNat = 2 ^ k) :
    (x ^^^ m).toNat % 2 ^ k = x.toNat % 2 ^ k ∧ (x ^^^ m).toNat / 2 ^ k / 2 = x.toNat / 2 ^ k / 2 ∧
      (x ^^^ m).toNat / 2 ^ k % 2 = (x.toNat / 2 ^ k + 1) % 2 := by
  have hdiv : (x ^^^ m).toNat / 2 ^ k = x.toNat / 2 ^ k ^^^ 1 := by
    rw [BitVec.toNat_xor, hm, Nat.xor_div_two_pow, Nat.div_self (Nat.two_pow_pos k)]
  refine ⟨?_, ?_, ?_⟩
  · rw [BitVec.toNat_xor, hm, Nat.xor_mod_two_pow, Nat.mod_self, Nat.xor_zero]
  · rw [hdiv, Nat.xor_div_two]
    exact Nat.xor_zero _
  · rw [hdiv, Nat.xor_mod_two_eq]

/-- The high part and the low part of an appended pair. -/
theorem toNat_append_eq {m n : Nat} (x : BitVec m) (y : BitVec n) : (x ++ y).toNat = x.toNat * 2 ^ n + y.toNat := by
  rw [BitVec.toNat_append, ← Nat.shiftLeft_add_eq_or_of_lt y.isLt, Nat.shiftLeft_eq]

end Sys2Proof.Machine
end

section
/-! SUPPORT. The scroll operations field by field (47 R641 to R644): what each does to the five fields of `v`, which are all of
`v`, once and many times. -/

namespace Sys2Proof.Machine

open Sys2Proof.Claims

/-- The five fields of `v`, put together again (10 R120). -/
theorem toNat_eq_fields (v : VAddr) :
    v.toNat = coarseX v + 32 * coarseY v + 1024 * ntX v + 2048 * ntY v + 4096 * fineY v := by
  simp only [coarseX, coarseY, ntX, ntY, fineY]
  omega

/-- `incrementX` on the five fields of `v` (47 R641). -/
theorem incX_fields (v : VAddr) : coarseX (incX v) = (coarseX v + 1) % 32 ∧
    ntX (incX v) = (ntX v + if coarseX v = 31 then 1 else 0) % 2 ∧
    coarseY (incX v) = coarseY v ∧ ntY (incX v) = ntY v ∧ fineY (incX v) = fineY v := by
  have hlow : (v &&& 0x001F#15).toNat = v.toNat % 32 := by simpa using toNat_and_mask v 0 5 (m := 0x001F#15) rfl
  have hwrap : v &&& 0x001F#15 = 31#15 ↔ v.toNat % 32 = 31 := by rw [← BitVec.toNat_inj, hlow]; rfl
  have hv := v.isLt
  simp only [coarseX, coarseY, ntX, ntY, fineY, incX, hwrap]
  by_cases h : v.toNat % 32 = 31
  · have hrest := toNat_and_mask v 5 10 (m := 0x7FE0#15) rfl
    have hflip := toNat_xor_bit (v &&& 0x7FE0#15) 10 (m := 0x0400#15) rfl
    simp only [h, if_true]
    omega
  · have hstep : (v + 1).toNat = v.toNat + 1 := by bv_omega
    simp only [h, if_false, hstep]
    omega

/-- The coarse Y field of `v` replaced by the one at the same place in `x` (47 R642). -/
theorem toNat_replaceCoarseY (v : VAddr) {x : VAddr} (hdvd : 2 ^ 5 ∣ x.toNat) (hlt : x.toNat < 2 ^ 10) :
    ((v &&& 0x7C1F#15) ||| x).toNat = v.toNat / 1024 % 32 * 1024 + x.toNat + v.toNat % 32 := by
  have hhigh : (v &&& 0x7C00#15).toNat = v.toNat / 2 ^ 10 % 2 ^ 5 * 2 ^ 10 := toNat_and_mask v 10 5 rfl
  have hlow : (v &&& 0x001F#15).toNat = v.toNat / 2 ^ 0 % 2 ^ 5 * 2 ^ 0 := toNat_and_mask v 0 5 rfl
  have hsplit : v &&& 0x7C1F#15 ||| x = (v &&& 0x7C00#15 ||| x) ||| v &&& 0x001F#15 := by
    rw [show (0x7C1F#15 : VAddr) = 0x7C00#15 ||| 0x001F#15 from rfl, BitVec.and_or_distrib_left, BitVec.or_assoc,
      BitVec.or_comm (v &&& 0x001F#15), ← BitVec.or_assoc]
  have hupper := toNat_or_of_dvd_of_lt 10 (x := v &&& 0x7C00#15) (by omega) hlt
  rw [hsplit, toNat_or_of_dvd_of_lt 5 (by omega) (by omega), hupper]
  omega

/-- The coarse Y field of `v` cleared (47 R642). -/
theorem toNat_clearCoarseY (v : VAddr) : (v &&& 0x7C1F#15).toNat = v.toNat / 1024 % 32 * 1024 + v.toNat % 32 := by
  have h := toNat_replaceCoarseY v (x := 0#15) (Nat.dvd_zero _) (Nat.two_pow_pos 10)
  rwa [BitVec.or_zero, BitVec.toNat_zero, Nat.add_zero] at h

theorem and_fineYMask_eq_iff (v : VAddr) : v &&& 0x7000#15 = 0x7000#15 ↔ fineY v = 7 := by
  have hmask : (v &&& 0x7000#15).toNat = v.toNat / 2 ^ 12 % 2 ^ 3 * 2 ^ 12 := toNat_and_mask v 12 3 rfl
  have hv := v.isLt
  rw [← BitVec.toNat_inj, hmask, fineY]
  change _ = 0x7000 ↔ _
  omega

/-- `incrementY` within a tile (47 R642). -/
theorem incY_of_fineY_ne {v : VAddr} (h : fineY v ≠ 7) : (incY v).toNat = v.toNat + 4096 := by
  have hv := v.isLt
  rw [incY, if_pos (mt (and_fineYMask_eq_iff v).1 h)]
  rw [fineY] at h
  bv_omega

/-- `incrementY` from the last row of a tile (47 R642). -/
theorem incY_of_fineY_eq {v : VAddr} (h : fineY v = 7) : (incY v).toNat = coarseX v + 1024 * ntX v +
    if coarseY v = 29 then 2048 * ((ntY v + 1) % 2) else 32 * ((coarseY v + 1) % 32) + 2048 * ntY v := by
  rw [incY, if_neg (not_not.2 ((and_fineYMask_eq_iff v).2 h))]
  dsimp only
  have hw : (v &&& 0x0FFF#15).toNat = v.toNat / 2 ^ 0 % 2 ^ 12 * 2 ^ 0 := toNat_and_mask v 0 12 rfl
  have hcy : (((v &&& 0x0FFF#15) >>> 5) &&& 0x1F#15).toNat = coarseY v := by
    have hmask := toNat_and_mask ((v &&& 0x0FFF#15) >>> 5) 0 5 (m := 0x1F#15) rfl
    rw [BitVec.toNat_ushiftRight, Nat.shiftRight_eq_div_pow] at hmask
    rw [coarseY]
    omega
  generalize v &&& 0x0FFF#15 = w at hw hcy ⊢
  generalize (w >>> 5) &&& 0x1F#15 = cy at hcy ⊢
  have h29 : cy = 29#15 ↔ coarseY v = 29 := by rw [← BitVec.toNat_inj, hcy]; rfl
  have h31 : cy = 31#15 ↔ coarseY v = 31 := by rw [← BitVec.toNat_inj, hcy]; rfl
  have hlt : coarseY v < 32 := Nat.mod_lt _ (by decide)
  simp only [h29, h31]
  split_ifs with hc hc'
  · have hflip := toNat_xor_bit w 11 (m := 0x0800#15) rfl
    rw [toNat_clearCoarseY, coarseX, ntX, ntY]
    omega
  · rw [toNat_clearCoarseY, hc', coarseX, ntX, ntY]
    omega
  · have hnext : ((cy + 1) <<< 5).toNat = 32 * (coarseY v + 1) := by
      rw [BitVec.toNat_shiftLeft, Nat.shiftLeft_eq]
      bv_omega
    rw [toNat_replaceCoarseY w (by omega) (by omega), hnext, coarseX, ntX, ntY]
    omega

/-- `incrementY` on the five fields of `v` (47 R642). -/
theorem incY_fields (v : VAddr) : fineY (incY v) = (fineY v + 1) % 8 ∧
    coarseY (incY v) = (if fineY v ≠ 7 then coarseY v else if coarseY v = 29 then 0 else (coarseY v + 1) % 32) ∧
    ntY (incY v) = (ntY v + if fineY v = 7 ∧ coarseY v = 29 then 1 else 0) % 2 ∧
    coarseX (incY v) = coarseX v ∧ ntX (incY v) = ntX v := by
  have hv := v.isLt
  by_cases hf : fineY v = 7
  · have h := incY_of_fineY_eq hf
    simp only [hf, ne_eq, not_true_eq_false, if_false, true_and]
    by_cases hc : coarseY v = 29
    · simp only [hc, if_true] at h ⊢
      simp only [coarseX, coarseY, ntX, ntY, fineY] at *
      omega
    · simp only [hc, if_false] at h ⊢
      simp only [coarseX, coarseY, ntX, ntY, fineY] at *
      omega
  · have h := incY_of_fineY_ne hf
    simp only [hf, ne_eq, not_false_eq_true, if_true, false_and, if_false]
    simp only [coarseX, coarseY, ntX, ntY, fineY] at *
    omega

/-- `n` applications of `incrementX` count columns: the nametable changes once in 32 (47 R641). -/
theorem incX_iterate_fields (v : VAddr) (n : Nat) : coarseX (incX^[n] v) = (coarseX v + n) % 32 ∧
    ntX (incX^[n] v) = (ntX v + (coarseX v + n) / 32) % 2 ∧
    coarseY (incX^[n] v) = coarseY v ∧ ntY (incX^[n] v) = ntY v ∧ fineY (incX^[n] v) = fineY v := by
  induction n with
  | zero =>
    refine ⟨?_, ?_, rfl, rfl, rfl⟩
    · exact (Nat.mod_mod _ 32).symm
    · rw [Function.iterate_zero_apply, coarseX, ntX]
      omega
  | succ n ih =>
    obtain ⟨hcx, hnx, hcy, hny, hfy⟩ := ih
    obtain ⟨kcx, knx, kcy, kny, kfy⟩ := incX_fields (incX^[n] v)
    rw [Function.iterate_succ_apply']
    refine ⟨?_, ?_, kcy.trans hcy, kny.trans hny, kfy.trans hfy⟩
    · omega
    · rw [knx]
      split_ifs <;> omega

/-- `n` applications of `incrementY` from row 0 count rows: the nametable changes once in 240 (47 R642). -/
theorem incY_iterate_fields {v : VAddr} (hf : fineY v = 0) (hc : coarseY v = 0) (n : Nat) :
    8 * coarseY (incY^[n] v) + fineY (incY^[n] v) = n % 240 ∧ ntY (incY^[n] v) = (ntY v + n / 240) % 2 ∧
    coarseX (incY^[n] v) = coarseX v ∧ ntX (incY^[n] v) = ntX v := by
  induction n with
  | zero =>
    refine ⟨?_, (Nat.mod_mod _ 2).symm, rfl, rfl⟩
    rw [Function.iterate_zero_apply, hf, hc]
  | succ n ih =>
    obtain ⟨hrow, hny, hcx, hnx⟩ := ih
    obtain ⟨kfy, kcy, kny, kcx, knx⟩ := incY_fields (incY^[n] v)
    have hlt : fineY (incY^[n] v) < 8 := Nat.div_lt_of_lt_mul (incY^[n] v).isLt
    rw [Function.iterate_succ_apply']
    refine ⟨?_, ?_, kcx.trans hcx, knx.trans hnx⟩
    · rw [kfy, kcy]
      split_ifs <;> omega
    · rw [kny]
      split_ifs <;> omega

end Sys2Proof.Machine
end

section
/-! SUPPORT. The scroll operations as changes of the whole state (47 R640). -/

namespace Sys2Proof.Machine

theorem State.scroll_of_enabled {s : State} (h : s.ppu.renderingEnabled = true) (f : VAddr → VAddr → VAddr) :
    s.scroll f = { s with ppu := { s.ppu with v := f s.ppu.v s.ppu.t } } := if_pos h

theorem State.scroll_scroll_of_enabled {s : State} (h : s.ppu.renderingEnabled = true) (f g : VAddr → VAddr → VAddr) :
    (s.scroll f).scroll g = { s with ppu := { s.ppu with v := g (f s.ppu.v s.ppu.t) s.ppu.t } } :=
  (congrArg (State.scroll · g) (State.scroll_of_enabled h f)).trans (if_pos h)

theorem State.scroll_of_disabled {s : State} (h : s.ppu.renderingEnabled = false) (f : VAddr → VAddr → VAddr) :
    s.scroll f = s := if_neg (ne_true_of_eq_false h)

section

variable (v t : VAddr)

/-- `v` after `resetX` (47 R643). -/
theorem getLsbD_copyX : ∀ k, (copyX v t).getLsbD k = if k < 5 ∨ k = 10 then t.getLsbD k else v.getLsbD k := by
  refine getLsbD_eq_of_fifteen (fun k hk => ?_) fun k hk => ?_
  · interval_cases k <;> simp [copyX]
  · rw [if_neg (by omega), v.getLsbD_of_ge k hk]

/-- `v` after `resetY` (47 R644). -/
theorem getLsbD_copyY : ∀ k, (copyY v t).getLsbD k = if k < 5 ∨ k = 10 then v.getLsbD k else t.getLsbD k := by
  refine getLsbD_eq_of_fifteen (fun k hk => ?_) fun k hk => ?_
  · interval_cases k <;> simp [copyY]
  · rw [if_neg (by omega), t.getLsbD_of_ge k hk]

/-- The two bit groups are all of `t` (47 R643, R644). -/
theorem copyY_copyX : copyY (copyX v t) t = t := by
  refine BitVec.eq_of_getLsbD_eq fun k _ => ?_
  rw [getLsbD_copyY, getLsbD_copyX]
  split_ifs <;> rfl

/-- The two bit groups are all of `t`, in the other order (47 R643, R644). -/
theorem copyX_copyY : copyX (copyY v t) t = t := by
  refine BitVec.eq_of_getLsbD_eq fun k _ => ?_
  rw [getLsbD_copyX, getLsbD_copyY]
  split_ifs <;> rfl

end

end Sys2Proof.Machine
end

section
/-! Settles O38, O39 and O40. -/

namespace Sys2Proof.Proofs

open Sys2Proof.Machine Sys2Proof.Claims

/-- Settles O38, field by field. -/
theorem scrollIncrements : Obligations.ScrollIncrements := fun _ h =>
  ⟨⟨_, State.scroll_of_enabled h _, incX_fields _⟩, _, State.scroll_of_enabled h _, incY_fields _⟩

/-- Settles O39: the copies bit by bit, and the gate of each operation. -/
theorem scrollCopiesAndGating : Obligations.ScrollCopiesAndGating := by
  refine fun s => ⟨fun h => ⟨?resetX, ?resetY, ?xThenY, ?yThenX⟩, fun h => ?disabled⟩
  case resetX => exact ⟨_, State.scroll_of_enabled h _, getLsbD_copyX s.ppu.v s.ppu.t⟩
  case resetY => exact ⟨_, State.scroll_of_enabled h _, getLsbD_copyY s.ppu.v s.ppu.t⟩
  case xThenY =>
    rw [State.resetX, State.resetY, State.scroll_scroll_of_enabled h, copyY_copyX]
  case yThenX =>
    rw [State.resetX, State.resetY, State.scroll_scroll_of_enabled h, copyX_copyY]
  case disabled =>
    have hoff : ¬s.ppu.renderingEnabled = true := ne_true_of_eq_false h
    exact ⟨s.scroll_of_disabled h _, s.scroll_of_disabled h _, s.scroll_of_disabled h _, s.scroll_of_disabled h _,
      fun _ => if_neg hoff, fun _ _ => if_neg fun hon => hoff hon.1⟩

/-- Settles O40: the columns and rows counted by the iterates, and the last row of the last tile. -/
theorem scrollAlgebra : Obligations.ScrollAlgebra := by
  refine ⟨fun v => ⟨?half, ?round⟩, fun v hf hc => ?rows, fun v hf hc => ?last⟩
  case half =>
    obtain ⟨hcx, hnx, hcy, hny, hfy⟩ := incX_iterate_fields v 32
    have hflip := toNat_xor_bit v 10 (m := 0x0400#15) rfl
    refine BitVec.eq_of_toNat_eq ?_
    rw [toNat_eq_fields (incX^[32] v), hcx, hnx, hcy, hny, hfy]
    simp only [coarseX, coarseY, ntX, ntY, fineY]
    omega
  case round =>
    obtain ⟨hcx, hnx, hcy, hny, hfy⟩ := incX_iterate_fields v 64
    refine BitVec.eq_of_toNat_eq ?_
    rw [toNat_eq_fields (incX^[64] v), hcx, hnx, hcy, hny, hfy]
    simp only [coarseX, coarseY, ntX, ntY, fineY]
    omega
  case rows =>
    obtain ⟨hrow, hny, hcx, hnx⟩ := incY_iterate_fields hf hc 240
    have hflip := toNat_xor_bit v 11 (m := 0x0800#15) rfl
    have htop : coarseY (incY^[240] v) = 0 ∧ fineY (incY^[240] v) = 0 := by omega
    refine BitVec.eq_of_toNat_eq ?_
    rw [toNat_eq_fields (incY^[240] v), hny, hcx, hnx, htop.1, htop.2]
    simp only [coarseX, coarseY, ntX, ntY, fineY] at *
    omega
  case last =>
    rw [incY_of_fineY_eq hf, if_neg (by omega), hc, coarseX, ntX, ntY]
    omega

end Sys2Proof.Proofs
end

section
/-! SUPPORT. The tile fetch in the words of the statements (47 R645, R650): its addresses and its pixels by plain arithmetic (D19,
D40), the rolling buffer, and the whole fetch from its four reads. -/

namespace Sys2Proof.Machine

open Sys2Proof.Claims

/-- A digit moved to the other width. -/
theorem toNat_setWidth_and_mask {w n : Nat} (x : BitVec w) (k l : Nat) {m : BitVec w} (hm : m.toNat = (2 ^ l - 1) <<< k)
    (hn : k + l ≤ n) : ((x &&& m).setWidth n).toNat = x.toNat / 2 ^ k % 2 ^ l * 2 ^ k := by
  rw [BitVec.toNat_setWidth, toNat_and_mask x k l hm]
  refine Nat.mod_eq_of_lt (Nat.lt_of_lt_of_le ?_ (Nat.pow_le_pow_right Nat.two_pos hn))
  rw [Nat.add_comm, Nat.pow_add]
  exact Nat.mul_lt_mul_of_pos_right (Nat.mod_lt _ (Nat.two_pow_pos l)) (Nat.two_pow_pos k)

/-- The nametable address (47 R645). -/
theorem ntAddr_eq (v : VAddr) : ntAddr v = BitVec.ofNat 14 (0x2000 + v.toNat % 0x1000) := by
  have hcell : ((v &&& 0x0FFF#15).setWidth 14).toNat = v.toNat % 0x1000 := by
    rw [toNat_setWidth_and_mask v 0 12 rfl (by decide)]
    omega
  refine BitVec.eq_of_toNat_eq ?_
  rw [ntAddr, toNat_or_of_dvd_of_lt 12 (by decide) (by omega), hcell]
  simp only [BitVec.toNat_ofNat]
  omega

/-- The address of the palette byte, one for 4 by 4 tiles (47 R645). -/
theorem atAddr_eq (v : VAddr) : atAddr v =
    BitVec.ofNat 14 (0x23C0 + 0x400 * (v.toNat / 0x400 % 4) + 8 * (v.toNat / 128 % 8) + v.toNat / 4 % 8) := by
  have hrow : (((v >>> 4) &&& 0x38#15).setWidth 14).toNat = 8 * (v.toNat / 128 % 8) := by
    rw [toNat_setWidth_and_mask (v >>> 4) 3 3 rfl (by decide), BitVec.toNat_ushiftRight, Nat.shiftRight_eq_div_pow]
    omega
  have hcol : (((v >>> 2) &&& 0x07#15).setWidth 14).toNat = v.toNat / 4 % 8 := by
    rw [toNat_setWidth_and_mask (v >>> 2) 0 3 rfl (by decide), BitVec.toNat_ushiftRight, Nat.shiftRight_eq_div_pow]
    omega
  have htable : (0x23C0#14 ||| (v &&& 0x0C00#15).setWidth 14).toNat = 0x23C0 + 0x400 * (v.toNat / 0x400 % 4) := by
    have hplace : ∀ n < 4, 0x23C0 ||| n * 0x400 = 0x23C0 + 0x400 * n := by decide
    rw [BitVec.toNat_or, toNat_setWidth_and_mask v 10 2 rfl (by decide)]
    exact hplace _ (Nat.mod_lt _ (by decide))
  have hupper := toNat_or_of_dvd_of_lt 6 (x := 0x23C0#14 ||| (v &&& 0x0C00#15).setWidth 14)
    (y := ((v >>> 4) &&& 0x38#15).setWidth 14) (by omega) (by omega)
  refine BitVec.eq_of_toNat_eq ?_
  rw [atAddr, toNat_or_of_dvd_of_lt 3 (by omega) (by omega), hupper, htable, hrow, hcol, BitVec.toNat_ofNat]
  omega

/-- The quadrant of the palette byte (47 R645). -/
theorem quadrantShift_eq (v : VAddr) : quadrantShift v = 4 * (v.toNat / 64 % 2) + 2 * (v.toNat / 2 % 2) := by
  have hrow : ((v >>> 4) &&& 4#15).toNat = 4 * (v.toNat / 64 % 2) := by
    rw [toNat_and_mask (v >>> 4) 2 1 rfl, BitVec.toNat_ushiftRight, Nat.shiftRight_eq_div_pow]
    omega
  have hcol : (v &&& 2#15).toNat = 2 * (v.toNat / 2 % 2) := by
    rw [toNat_and_mask v 1 1 rfl]
    omega
  rw [quadrantShift, toNat_or_of_dvd_of_lt 2 (by omega) (by omega), hrow, hcol]

/-- The two pattern tables are 0x1000 apart (10 R122). -/
theorem Ppu.bgPatBase_toNat (p : Ppu) : p.bgPatBase.toNat = 0x1000 * (p.ctrl.toNat / 16 % 2) := by
  rw [Ppu.bgPatBase, getLsbD_eq_decide_div p.ctrl 4]
  rcases Nat.mod_two_eq_zero_or_one (p.ctrl.toNat / 16) with h | h <;> simp [h]

/-- The row of the tile's low plane (47 R645, D19). -/
theorem bgPatLo_toNat (p : Ppu) (nt : Byte) (v : VAddr) : (bgPatLo p.bgPatBase nt v).toNat =
    0x1000 * (p.ctrl.toNat / 16 % 2) + 16 * nt.toNat + v.toNat / 0x1000 := by
  have hbase := p.bgPatBase_toNat
  have htile : (nt.setWidth 14 <<< 4).toNat = 16 * nt.toNat := by
    rw [BitVec.toNat_shiftLeft, BitVec.toNat_setWidth, Nat.shiftLeft_eq]
    omega
  have hfine : (((v >>> 12) &&& 7#15).setWidth 14).toNat = v.toNat / 0x1000 := by
    rw [toNat_setWidth_and_mask (v >>> 12) 0 3 rfl (by decide), BitVec.toNat_ushiftRight, Nat.shiftRight_eq_div_pow]
    omega
  have hupper := toNat_or_of_dvd_of_lt 12 (x := p.bgPatBase) (y := nt.setWidth 14 <<< 4) (by omega) (by omega)
  rw [bgPatLo, toNat_or_of_dvd_of_lt 4 (by omega) (by omega), hupper, hbase, htile, hfine]

theorem bgPatLo_eq (p : Ppu) (nt : Byte) (v : VAddr) : bgPatLo p.bgPatBase nt v =
    BitVec.ofNat 14 (0x1000 * (p.ctrl.toNat / 16 % 2) + 16 * nt.toNat + v.toNat / 0x1000) := by
  rw [← bgPatLo_toNat, BitVec.ofNat_toNat, BitVec.setWidth_eq]

/-- The high plane is 8 bytes after the low one (47 R645, D19). -/
theorem bgPatLo_or_eight_eq (p : Ppu) (nt : Byte) (v : VAddr) : bgPatLo p.bgPatBase nt v ||| 8#14 =
    BitVec.ofNat 14 (0x1000 * (p.ctrl.toNat / 16 % 2) + 16 * nt.toNat + v.toNat / 0x1000 + 8) := by
  have hlo := bgPatLo_toNat p nt v
  have hclear : bgPatLo p.bgPatBase nt v &&& 8#14 = 0#14 := by
    refine BitVec.eq_of_toNat_eq ?_
    rw [toNat_and_mask _ 3 1 rfl, hlo, BitVec.toNat_zero]
    omega
  rw [← BitVec.add_eq_or_of_and_eq_zero _ _ hclear, ← hlo, BitVec.ofNat_add, BitVec.ofNat_toNat, BitVec.setWidth_eq]

/-- The sub-palette of the tile (47 R645). -/
theorem subPalette_toNat (b : Byte) (v : VAddr) :
    (subPalette b v).toNat = b.toNat / 2 ^ (4 * (v.toNat / 64 % 2) + 2 * (v.toNat / 2 % 2)) % 4 := by
  rw [subPalette, quadrantShift_eq, BitVec.toNat_setWidth, BitVec.toNat_ushiftRight, Nat.shiftRight_eq_div_pow]

/-- The colour of one pixel of a row of two planes (47 R645, 48 R676). -/
theorem planeColour_toNat (lo hi : Byte) (b : Nat) : (planeColour lo hi b).toNat = 2 * bitNat hi b + bitNat lo b := by
  have hbit : ∀ x : Byte, (BitVec.ofBool (x.getLsbD b)).toNat = bitNat x b := fun x => by
    rw [BitVec.toNat_ofBool, BitVec.getLsbD, Nat.toNat_testBit, bitNat]
  rw [planeColour, toNat_append_eq, hbit, hbit, Nat.pow_one, Nat.mul_comm]

/-- A background pixel: the sub-palette above the colour (47 R650). -/
theorem tilePixel_toNat (att lo hi : Byte) (v : VAddr) (b : Nat) : (subPalette att v ++ planeColour lo hi b).toNat =
    4 * (att.toNat / 2 ^ (4 * (v.toNat / 64 % 2) + 2 * (v.toNat / 2 % 2)) % 4) + 2 * bitNat hi b + bitNat lo b := by
  rw [toNat_append_eq, subPalette_toNat, planeColour_toNat]
  omega

/-- The old half of the rolling buffer moves down (47 R650). -/
theorem pixelNat_shiftIn_low (buf : Table Pixel) (new : Nat → Pixel) {i : Nat} (hi : i < 8) :
    pixelNat (shiftIn buf new) i = pixelNat buf (i + 8) := by
  rw [pixelNat, shiftIn, Table.read_tabulate, if_pos (by omega), if_pos hi, pixelNat]

/-- The new pixels are the high half of the rolling buffer (47 R650). -/
theorem pixelNat_shiftIn_high (buf : Table Pixel) (new : Nat → Pixel) {i : Nat} (hi : i < 8) :
    pixelNat (shiftIn buf new) (8 + i) = (new i).toNat := by
  rw [pixelNat, shiftIn, Table.read_tabulate, if_pos (by omega), if_neg (by omega), Nat.add_sub_cancel_left]

/-- `fetchTile` from its four reads (47 R650). -/
theorem State.fetchTile_of_enabled {s : State} (h : s.ppu.renderingEnabled = true) {nt att lo hi : Byte × State}
    (hnt : s.ppuRead (ntAddr s.ppu.v) = nt) (hatt : nt.2.ppuRead (atAddr s.ppu.v) = att)
    (hlo : att.2.ppuRead (bgPatLo s.ppu.bgPatBase nt.1 s.ppu.v) = lo)
    (hhi : lo.2.ppuRead (bgPatLo s.ppu.bgPatBase nt.1 s.ppu.v ||| 8#14) = hi) :
    s.fetchTile = { hi.2 with ppu := { s.ppu with
      v := incX s.ppu.v
      bgBuf := shiftIn s.ppu.bgBuf fun i => subPalette att.1 s.ppu.v ++ planeColour lo.1 hi.1 (7 - i) } } := by
  obtain ⟨c, hc, -⟩ : OnlyCart s hi.2 := by
    subst hnt hatt hlo hhi
    exact (((s.ppuRead_onlyCart _).trans (State.ppuRead_onlyCart _ _)).trans (State.ppuRead_onlyCart _ _)).trans
      (State.ppuRead_onlyCart _ _)
  rw [State.fetchTile, if_pos h]
  simp only [hnt, hatt, hlo, hhi, hc]
  exact if_pos h

theorem State.fetchTile_of_disabled {s : State} (h : s.ppu.renderingEnabled = false) :
    s.fetchTile = { s with ppu := { s.ppu with bgBuf := shiftIn s.ppu.bgBuf fun _ => 0 } } :=
  if_neg (ne_true_of_eq_false h)

end Sys2Proof.Machine
end

section
/-! Settles O41. -/

namespace Sys2Proof.Proofs

open Sys2Proof.Machine Sys2Proof.Claims

/-- Settles O41: the whole fetch from its four reads, whose addresses and pixels are the formulas of the statement. -/
theorem tileFetch : Obligations.TileFetch := by
  refine fun s => ⟨fun i hlt => ?shifted, fun h => ?enabled, fun h => ?disabled⟩
  case shifted =>
    obtain ⟨c, v, new, he, -⟩ := s.fetchTile_eq
    rw [he]
    exact pixelNat_shiftIn_low _ _ hlt
  case enabled =>
    intro v nt att row lo hi pal
    have he : s.fetchTile = _ := State.fetchTile_of_enabled h (nt := nt) (att := att) (lo := lo) (hi := hi)
      (congrArg s.ppuRead (ntAddr_eq s.ppu.v)) (congrArg nt.2.ppuRead (atAddr_eq s.ppu.v))
      (congrArg att.2.ppuRead (bgPatLo_eq s.ppu nt.1 s.ppu.v)) (congrArg lo.2.ppuRead (bgPatLo_or_eight_eq s.ppu nt.1 s.ppu.v))
    refine ⟨fun i hlt => ?_, ?_⟩
    · rw [he, pixelNat_shiftIn_high _ _ hlt]
      exact tilePixel_toNat ..
    · rw [he]
  case disabled =>
    rw [State.fetchTile_of_disabled h]
    exact ⟨fun _ hlt => pixelNat_shiftIn_high s.ppu.bgBuf (fun _ => 0) hlt, rfl⟩

end Sys2Proof.Proofs
end

section
/-! SUPPORT. The schedules line by line, and a step at an entry of one (49 R704 to R715). -/

namespace Sys2Proof.Machine

open Sys2Proof.Claims

theorem sched_visible {line : Nat} (h : line < 240) : sched line = visibleSched := if_pos h

/-- The lines of vertical blank after 241 have one empty entry (49 R714). -/
theorem sched_idle {line : Nat} (h0 : 242 ≤ line) (h1 : line ≠ 261) : sched line = [⟨0, []⟩] := by
  unfold sched
  rw [if_neg (by omega), if_neg (by omega), if_neg (by omega), if_neg h1]

/-- What holds of every schedule, from the five kinds of lines (49 R710 to R715). -/
theorem sched_induction {P : Nat → List Entry → Prop} (visible : ∀ line < 240, P line visibleSched)
    (postRender : P 240 [⟨0, [.frameDone]⟩]) (vblank : P 241 [⟨0, [.doVBlank]⟩])
    (idle : ∀ line, 242 ≤ line → line ≠ 261 → P line [⟨0, []⟩]) (preRender : P 261 preRenderSched) (line : Nat) :
    P line (sched line) := by
  by_cases hv : line < 240
  · rw [sched_visible hv]
    exact visible line hv
  · by_cases hb : 242 ≤ line
    · by_cases hp : line = 261
      · rw [hp]
        exact preRender
      · rw [sched_idle hb hp]
        exact idle line hb hp
    · obtain rfl | rfl : line = 240 ∨ line = 241 := by omega
      · exact postRender
      · exact vblank

theorem sched_length (line : Nat) : (sched line).length = if line < 240 then 42 else if line = 261 then 43 else 1 := by
  refine sched_induction (P := fun line es => es.length = if line < 240 then 42 else if line = 261 then 43 else 1)
    (fun line h => ?_) rfl rfl (fun line h hne => ?_) rfl line
  · rw [if_pos h]
    rfl
  · rw [if_neg (by omega), if_neg hne]
    rfl

/-- The table of 49 R710, entry by entry. -/
theorem visibleSched_getElem? : ∀ k < 42, visibleSched[k]? = some (visibleEntry k) := by decide

/-- The table of 49 R715, entry by entry. -/
theorem preRenderSched_getElem? : ∀ k < 43, preRenderSched[k]? = some (preRenderEntry k) := by decide

/-- Entries in time order and inside the shorter scanline (49 R704). -/
def TimesInOrder (es : List Entry) : Prop := es.Pairwise (fun e f => e.at6 ≤ f.at6) ∧ ∀ e ∈ es, e.at6 ≤ 681

theorem timesInOrder_singleton (ops : List SchedOp) : TimesInOrder [⟨0, ops⟩] :=
  ⟨List.pairwise_singleton _ _, fun e h => by rw [List.mem_singleton.1 h]; exact Nat.zero_le _⟩

theorem sched_timesInOrder (line : Nat) : TimesInOrder (sched line) := by
  refine sched_induction (P := fun _ es => TimesInOrder es) (fun _ _ => ⟨?_, ?_⟩) (timesInOrder_singleton _)
    (timesInOrder_singleton _) (fun _ _ _ => timesInOrder_singleton _) ⟨?_, ?_⟩ line <;> decide

/-- Later places are at later times, inside the scanline. -/
theorem TimesInOrder.at6_le {es : List Entry} (h : TimesInOrder es) {i j : Nat} {e f : Entry} (hij : i ≤ j)
    (he : es[i]? = some e) (hf : es[j]? = some f) : e.at6 ≤ f.at6 ∧ f.at6 ≤ 681 := by
  obtain ⟨hi, rfl⟩ := List.getElem?_eq_some_iff.1 he
  obtain ⟨hj, rfl⟩ := List.getElem?_eq_some_iff.1 hf
  refine ⟨?_, h.2 _ (List.getElem_mem hj)⟩
  rcases Nat.eq_or_lt_of_le hij with rfl | hlt
  · exact Nat.le_refl _
  · exact List.pairwise_iff_getElem.1 h.1 i j hi hj hlt

/-- The end of a frame in whole cycles (49 R730). -/
theorem State.endFrame_eq (s : State) : s.endFrame = { s with
    cycle := s.cycle - s.cycleOffset6 / 6, cycleOffset6 := s.cycleOffset6 % 6, scanline := 0, frameCount := s.frameCount + 1 } := by
  have hk : s.cycleOffset6 - 6 * (s.cycleOffset6 / 6) = s.cycleOffset6 % 6 := by omega
  rw [State.endFrame, hk]

theorem State.entry_of_getElem? {s : State} {e : Entry} (h : (sched s.scanline)[s.pos]? = some e) : s.entry = e := by
  rw [State.entry, h]
  rfl

/-- Whether the CPU is due, by the time of the entry the Scheduler is at (49 R706). -/
theorem State.cpuDue_of_getElem? {s : State} {at6 : Nat} {ops : List SchedOp}
    (h : (sched s.scanline)[s.pos]? = some ⟨at6, ops⟩) : s.cpuDue = decide (6 * s.cycle ≤ at6 + s.cycleOffset6) := by
  rw [State.cpuDue, State.entry_of_getElem? h]

theorem State.cpuDue_eq_false_iff {s : State} {at6 : Nat} {ops : List SchedOp}
    (h : (sched s.scanline)[s.pos]? = some ⟨at6, ops⟩) : s.cpuDue = false ↔ at6 + s.cycleOffset6 < 6 * s.cycle := by
  rw [State.cpuDue_of_getElem? h, decide_eq_false_iff_not, Nat.not_le]

/-- The place after an entry, its operations done in `t` (49 R705, R706). -/
def movedOn (s t : State) : State :=
  if s.pos + 1 < (sched s.scanline).length then { t with pos := s.pos + 1 }
  else if s.scanline = 261 then ({ t with cycleOffset6 := s.cycleOffset6 + 681, pos := 0, scanline := 262 } : State).endFrame
  else { t with cycleOffset6 := s.cycleOffset6 + 682, pos := 0, scanline := s.scanline + 1 }

/-- Moving on from the place of `s` (49 R705, R706). -/
theorem State.advance_eq_movedOn {s t : State} (hline : t.scanline = s.scanline) (hpos : t.pos = s.pos)
    (hoff : t.cycleOffset6 = s.cycleOffset6) : t.advance = movedOn s t := by
  unfold State.advance State.endLine movedOn line6
  dsimp only
  rw [hline, hpos, hoff]
  split
  · rfl
  · by_cases h : s.scanline = 261
    · rw [if_pos h, if_pos h, if_pos (by omega), h]
    · rw [if_neg h, if_neg h, if_neg (by omega)]

/-- A STEP AT AN ENTRY the CPU has passed: its operations in order, then the next place (49 R706). -/
theorem step_entry {s : State} {at6 : Nat} {ops : List SchedOp} (ha : NoCallHere s)
    (he : (sched s.scanline)[s.pos]? = some ⟨at6, ops⟩) (ht : at6 + s.cycleOffset6 < 6 * s.cycle) :
    step s = .next (movedOn s (ops.foldl State.perform (taken s))) := by
  have hent : (taken s).entry = ⟨at6, ops⟩ := State.entry_of_getElem? he
  obtain ⟨hline, hpos, hoff⟩ := (taken s).performAll_place ops
  rw [step_ppu ha ((State.cpuDue_eq_false_iff he).2 ht), State.ppuStep, hent, State.advance_eq_movedOn hline hpos hoff]
  rfl

end Sys2Proof.Machine
end

section
/-! Settles O6, O7, O46, O47, O48 and O49. -/

namespace Sys2Proof.Proofs

open Sys2Proof.Machine Sys2Proof.Claims

/-- Settles O6, by the two kinds of a step that no call comes before. -/
theorem stepIsOneInstructionOrOneEntry : Obligations.StepIsOneInstructionOrOneEntry := fun _ _ ha he =>
  ⟨fun hdue => step_cpu ha ((State.cpuDue_of_getElem? he).trans (decide_eq_true hdue)), step_entry ha he⟩

/-- Settles O7, table by table. -/
theorem schedulesAreTheTables : Obligations.SchedulesAreTheTables := by
  refine ⟨sched_length, fun line k hl hk => ?_, preRenderSched_getElem?, rfl, rfl, fun line h0 h1 => sched_idle h0 (by omega),
    fun line i j e f hij he hf => (sched_timesInOrder line).at6_le hij he hf, State.endFrame_eq⟩
  rw [sched_visible hl]
  exact visibleSched_getElem? k hk

/-- Settles O46: the entry of scanline 241 is `doVBlank` alone, whose NMI is an interrupt entry. -/
theorem vBlankRaisesNmi : Obligations.VBlankRaisesNmi := by
  intro s ha hline hpos ht u
  have he : (sched s.scanline)[s.pos]? = some ⟨0, [.doVBlank]⟩ := by rw [hline, hpos]; rfl
  have hstep : step s = .next { (taken s).doVBlank with cycleOffset6 := s.cycleOffset6 + 682, pos := 0, scanline := 242 } := by
    rw [step_entry ha he (by omega), movedOn, hline, hpos]
    rfl
  rw [hstep]
  refine ⟨fun hn => ?_, fun hn => ⟨u.doNMI, entryTaken_enter u 0xFFFA true true, ?_⟩⟩
  · rw [State.doVBlank_of_disabled (taken s) hn]
    rfl
  · have hv : (taken s).doVBlank = u.doNMI := if_pos hn
    rw [hv]

/-- `endVBlank` by the bits of `mask` (48 R691). -/
theorem endVBlank_eq (s : State) : s.endVBlank = { s with ppu := { s.ppu with
    vblank := false, sprite0Hit := false, spriteOverflow := false
    renderingEnabled := decide (s.ppu.mask.toNat / 8 % 2 = 1 ∨ s.ppu.mask.toNat / 16 % 2 = 1) } } := by
  have hbg : s.ppu.showBg = decide (s.ppu.mask.toNat / 8 % 2 = 1) := getLsbD_eq_decide_div s.ppu.mask 3
  have hspr : s.ppu.showSpr = decide (s.ppu.mask.toNat / 16 % 2 = 1) := getLsbD_eq_decide_div s.ppu.mask 4
  rw [State.endVBlank, hbg, hspr, Bool.decide_or]

/-- Settles O47: the operations after `endVBlank` in the first entry of scanline 261 leave the flags and the latch alone. -/
theorem endOfVBlankClearsFlags : Obligations.EndOfVBlankClearsFlags := by
  refine fun s => ⟨endVBlank_eq s, fun ha hline hpos ht => ?_⟩
  have he : (sched s.scanline)[s.pos]? = some ⟨0, [.endVBlank, .clearSecondaryOAM, .fetchTile]⟩ := by rw [hline, hpos]; rfl
  obtain ⟨c, v, new, hfetch, -⟩ := (taken s).endVBlank.clearSecondaryOAM.fetchTile_eq
  have hstep : step s = .next { (taken s).endVBlank.clearSecondaryOAM.fetchTile with pos := 1 } := by
    rw [step_entry ha he (by omega), movedOn, hline, hpos]
    rfl
  rw [hstep, hfetch, endVBlank_eq]
  exact ⟨_, rfl, rfl, rfl, rfl, rfl, hline, rfl⟩

/-- A step at the last entry of a frame (49 R715, R730). -/
theorem step_frameEnd {s : State} (ha : NoCallHere s) (hline : s.scanline = 261) (hpos : s.pos = 42)
    (ht : s.cycleOffset6 + 681 < 6 * s.cycle) : step s = .next { taken s with
      cycle := s.cycle - (s.cycleOffset6 + 681) / 6, cycleOffset6 := (s.cycleOffset6 + 681) % 6, pos := 0, scanline := 0
      frameCount := s.frameCount + 1 } := by
  have he : (sched s.scanline)[s.pos]? = some ⟨681, []⟩ := by rw [hline, hpos]; rfl
  have hlast : ¬s.pos + 1 < (sched s.scanline).length := by rw [hline, hpos]; decide
  rw [step_entry ha he (by omega), movedOn, if_neg hlast, if_pos hline, State.endFrame_eq]
  rfl

/-- Settles O48: the two entries' steps, with the offset the invariant gives a frame. -/
theorem framesAreHandedOverAndRebased : Obligations.FramesAreHandedOverAndRebased := by
  intro s hinv ha
  refine ⟨fun hline ht => ?handover, fun hline hpos ht => ⟨fun hoff => ?atZero, fun hoff => ?atThree⟩,
    fun hoff hpos => ⟨fun hline => ?_, fun hline => ?_, fun hline => ?_⟩⟩
  case handover =>
    have hpos : s.pos = 0 := by
      have hlt := hinv.sched.pos
      rw [hline] at hlt
      exact Nat.lt_one_iff.1 hlt
    have he : (sched s.scanline)[s.pos]? = some ⟨0, [.frameDone]⟩ := by rw [hline, hpos]; rfl
    rw [step_entry ha he (by omega), movedOn, hline, hpos]
    rfl
  case atZero =>
    rw [step_frameEnd ha hline hpos ht, hoff]
    exact ⟨by omega, rfl⟩
  case atThree =>
    rw [step_frameEnd ha hline hpos ht, hoff]
    exact ⟨by omega, rfl⟩
  all_goals
    obtain ⟨ops, he⟩ : ∃ ops, (sched s.scanline)[s.pos]? = some ⟨0, ops⟩ := by rw [hline, hpos]; exact ⟨_, rfl⟩
    rw [State.cpuDue_eq_false_iff he]
    omega

/-- Settles O49: with `I` clear the request is an interrupt entry. -/
theorem irqRequests : Obligations.IrqRequests := by
  intro s rest ha
  have ht : taken s = { s with agenda := rest } := by unfold taken; rw [ha]; rfl
  have hstep : step s = .next (taken s).doIRQ := by unfold step; rw [ha, ht]
  rw [hstep]
  refine ⟨fun hi => congrArg _ (if_pos hi), fun hi => ⟨_, rfl, ?_⟩⟩
  have hentry : (taken s).doIRQ = (taken s).enter irqVector true true := if_neg (ne_true_of_eq_false hi)
  rw [hentry]
  exact entryTaken_enter (taken s) 0xFFFE true true

end Sys2Proof.Proofs
end

section
/-! SUPPORT. What one CPU step does: it completes under policy reset, leaves the Scheduler alone and takes 2 to 521 cycles (30 R330,
46 R620, log 19). -/

namespace Sys2Proof.Machine

open Sys2Proof.Claims

/-- Fetching costs nothing by itself: the instruction adds its cost (30 R302). -/
theorem State.fetchBytes_cycle (s : State) (n : Nat) : (s.fetchBytes n).2.cycle = s.cycle := by
  induction n generalizing s with
  | zero => rfl
  | succ n ih =>
    have hb : s.fetchByte.2.cycle = s.cycle := by rw [State.fetchByte, (s.rd_frame s.pc).core]
    exact (ih _).trans hb

theorem State.fetch_cycle (s : State) : s.fetch.2.cycle = s.cycle :=
  (State.fetchBytes_cycle _ _).trans (s.fetchBytes_cycle 1)

/-- EVERYTHING A CPU STEP THAT ANSWERS A STATE CAN BE (30 R302): the fetched instruction, then the audio unit's cycles. -/
theorem State.cpuStep_cases {s t : State} (h : s.cpuStep = .next t) :
    ∃ v, exec s.fetch.1 s.fetch.2 = .next v ∧ t = s.tickApu v := by
  unfold State.cpuStep at h
  split at h
  · next v hv => exact ⟨v, hv, (Host.Outcome.next.inj h).symm⟩
  · cases h
  · cases h

theorem State.cpuStep_path {s t : State} (h : s.cpuStep = .next t) : CpuPath s t := by
  obtain ⟨v, hv, rfl⟩ := State.cpuStep_cases h
  exact (s.fetch_path.trans (exec_path hv)).tail (.tick v _)

/-- WHAT A CPU STEP COSTS: 2 to 7 cycles and at most 514 of a DMA's stall (30 R330, R334, 46 R620, log 19). -/
theorem State.cpuStep_cycle {s t : State} (h : s.cpuStep = .next t) : s.cycle + 2 ≤ t.cycle ∧ t.cycle ≤ s.cycle + 521 := by
  obtain ⟨v, hv, rfl⟩ := State.cpuStep_cases h
  have ht : (s.tickApu v).cycle = v.cycle := rfl
  have hf := s.fetch_cycle
  obtain ⟨c, hl, hu, hc | ⟨m, -, hc⟩⟩ := exec_cycle hv
  · omega
  · have hd := s.fetch.2.dmaStall_cases (s.fetch.2.resolve m).ea
    omega

/-- Under policy reset a CPU step completes (60 R815). -/
theorem State.cpuStep_completes {s : State} (h : s.params.illegalPolicy = .reset) : ∃ t, s.cpuStep = .next t := by
  rcases s.cpuStep_completesOrFaults with ht | ⟨op, -, hq, -⟩
  · exact ht
  · rw [h] at hq
    cases hq

end Sys2Proof.Machine
end

section
/-! Settles O59: the loop of 49 R701 turn by turn. -/

namespace Sys2Proof.Machine

section

variable {limit6 : Nat} {s : State}

/-- The loop ends when the limit is passed (49 R701). -/
theorem State.doInstructions_of_passed (h : limit6 + s.cycleOffset6 < 6 * s.cycle) (fuel : Nat) :
    s.doInstructions limit6 (fuel + 1) = some (.next s) := if_neg (Nat.not_le.2 h)

/-- One turn of the loop (49 R701). -/
theorem State.doInstructions_of_due (h : 6 * s.cycle ≤ limit6 + s.cycleOffset6) {t : State} (ht : s.cpuStep = .next t)
    (fuel : Nat) : s.doInstructions limit6 (fuel + 1) = t.doInstructions limit6 fuel := by
  rw [State.doInstructions, if_pos h, ht]

end

/-- WHERE THE LOOP ENDS: past the limit by less than the cost of one instruction, unless it was further past it at the start. -/
theorem State.doInstructions_next {limit6 fuel : Nat} {s t : State} (h : s.doInstructions limit6 fuel = some (.next t)) :
    limit6 + s.cycleOffset6 < 6 * t.cycle ∧ t.cycleOffset6 = s.cycleOffset6 ∧
      6 * t.cycle ≤ max (6 * s.cycle) (limit6 + s.cycleOffset6 + 6 * 521) := by
  induction fuel generalizing s with
  | zero => cases h
  | succ fuel ih =>
    by_cases hdue : 6 * s.cycle ≤ limit6 + s.cycleOffset6
    · cases hstep : s.cpuStep with
      | next u =>
        rw [State.doInstructions_of_due hdue hstep] at h
        have hoff : u.cycleOffset6 = s.cycleOffset6 := by rw [(State.cpuStep_path hstep).frame.core]
        obtain ⟨hpast, hkept, hbound⟩ := ih h
        rw [hoff] at hpast hkept hbound
        have hcost := State.cpuStep_cycle hstep
        exact ⟨hpast, hkept, by omega⟩
      | fault r => rw [State.doInstructions, if_pos hdue, hstep] at h; cases h
      | refused r => rw [State.doInstructions, if_pos hdue, hstep] at h; cases h
    · rw [State.doInstructions_of_passed (Nat.not_le.1 hdue)] at h
      cases h
      exact ⟨Nat.not_le.1 hdue, rfl, Nat.le_max_left _ _⟩

/-- THE LOOP ENDS: every turn takes 2 cycles at least (30 R330). -/
theorem State.doInstructions_completes {limit6 : Nat} (n : Nat) {s : State} (hq : s.params.illegalPolicy = .reset)
    (hn : limit6 + s.cycleOffset6 < 6 * s.cycle + 12 * n) : ∃ t, s.doInstructions limit6 (n + 1) = some (.next t) := by
  induction n generalizing s with
  | zero => exact ⟨s, State.doInstructions_of_passed hn 0⟩
  | succ n ih =>
    by_cases hdue : 6 * s.cycle ≤ limit6 + s.cycleOffset6
    · obtain ⟨u, hu⟩ := State.cpuStep_completes hq
      have hpath := State.cpuStep_path hu
      have hoff : u.cycleOffset6 = s.cycleOffset6 := by rw [hpath.frame.core]
      have hcost := State.cpuStep_cycle hu
      rw [State.doInstructions_of_due hdue hu]
      exact ih (hpath.params ▸ hq) (by omega)
    · exact ⟨s, State.doInstructions_of_passed (Nat.not_le.1 hdue) _⟩

end Sys2Proof.Machine

namespace Sys2Proof.Proofs

open Sys2Proof.Machine

/-- Settles O59: where the loop ends, and that a turn for every 12 half-dots under the limit is enough to end it. -/
theorem doInstructionsRunsPastTheLimit : Obligations.DoInstructionsRunsPastTheLimit := by
  refine fun limit6 s => ⟨State.doInstructions_of_passed, fun fuel t h => ?_, fun hq =>
    State.doInstructions_completes (limit6 + s.cycleOffset6 + 1) hq (by omega)⟩
  obtain ⟨hpast, hkept, hbound⟩ := State.doInstructions_next h
  exact ⟨hpast, hkept, fun hdue => by omega⟩

end Sys2Proof.Proofs
end

section
/-! Settles O60: a frame as a descent. A step inside a frame performs an entry, of which a frame has finitely many, or runs an
instruction, of which finitely many fit before the next entry. -/

namespace Sys2Proof.Machine

open Sys2Proof.Claims

/-- No operation uses up the environment's calls or counts a frame (49 R704). -/
theorem State.perform_agenda_frameCount (s : State) (op : SchedOp) :
    (s.perform op).agenda = s.agenda ∧ (s.perform op).frameCount = s.frameCount := by
  by_cases h : op = .doVBlank
  · subst h
    have hp : s.perform .doVBlank = _ := s.doVBlank_path.frame.core
    rw [hp]
    exact ⟨rfl, rfl⟩
  · rw [(s.perform_frame h).core]
    exact ⟨rfl, rfl⟩

theorem State.performAll_agenda_frameCount (s : State) (ops : List SchedOp) :
    (ops.foldl State.perform s).agenda = s.agenda ∧ (ops.foldl State.perform s).frameCount = s.frameCount := by
  induction ops generalizing s with
  | nil => exact ⟨rfl, rfl⟩
  | cons op ops ih =>
    obtain ⟨ha, hc⟩ := s.perform_agenda_frameCount op
    obtain ⟨ha', hc'⟩ := ih (s.perform op)
    exact ⟨ha'.trans ha, hc'.trans hc⟩

theorem State.renderTile_framesDone (s : State) (line k : Nat) : (s.renderTile line k).framesDone = s.framesDone := by
  unfold State.renderTile
  generalize List.range 8 = l
  induction l generalizing s with
  | nil => rfl
  | cons i l ih => exact ih _

/-- `frameDone` alone hands a picture over (49 R713). -/
theorem State.perform_framesDone (s : State) (op : SchedOp) :
    (s.perform op).framesDone = s.framesDone + [op].count .frameDone := by
  have scroll : ∀ f, (s.scroll f).framesDone = s.framesDone := fun f => by
    obtain ⟨v, hv⟩ := s.scroll_eq f
    rw [hv]
  cases op with
  | clearSecondaryOAM => rfl
  | evaluateSprites =>
    unfold State.perform State.evaluateSprites
    dsimp only
    split <;> rfl
  | clearSpriteLayers => rfl
  | fetchSprite i =>
    obtain ⟨c, b, z, f, he, -⟩ := s.fetchSprite_eq i s.scanline
    rw [State.perform, he]
    rfl
  | renderTile k => exact s.renderTile_framesDone _ k
  | fetchTile =>
    obtain ⟨c, v, new, he, -⟩ := s.fetchTile_eq
    rw [State.perform, he]
    rfl
  | incrementY => exact scroll fun v _ => incY v
  | resetX => exact scroll copyX
  | resetY => exact scroll copyY
  | frameDone => rfl
  | doVBlank =>
    have hp : s.perform .doVBlank = _ := s.doVBlank_path.frame.core
    rw [hp]
    rfl
  | endVBlank => rfl

theorem State.performAll_framesDone (s : State) (ops : List SchedOp) :
    (ops.foldl State.perform s).framesDone = s.framesDone + ops.count .frameDone := by
  induction ops generalizing s with
  | nil => rfl
  | cons op ops ih =>
    have hcount : (op :: ops).count .frameDone = [op].count .frameDone + ops.count .frameDone :=
      List.count_append (l₁ := [op])
    rw [List.foldl_cons, ih, State.perform_framesDone, hcount, Nat.add_assoc]

/-- A frame hands its picture over once, on scanline 240 (49 R713). -/
theorem frameDone_count {line : Nat} {e : Entry} (he : e ∈ sched line) :
    e.ops.count .frameDone = if line = 240 then 1 else 0 := by
  have hv : ∀ e ∈ visibleSched, e.ops.count .frameDone = 0 := by decide
  have hp : ∀ e ∈ preRenderSched, e.ops.count .frameDone = 0 := by decide
  have hs : ∀ ops, ∀ e ∈ [(⟨0, ops⟩ : Entry)], e.ops.count .frameDone = ops.count .frameDone :=
    fun ops e he => by rw [List.mem_singleton.1 he]
  refine sched_induction (P := fun line es => ∀ e ∈ es, e.ops.count .frameDone = if line = 240 then 1 else 0)
    (fun line hl e he => ?_) (hs _) (hs _) (fun line hl _ e he => ?_) hp line e he
  · rw [if_neg (by omega), hv e he]
  · rw [if_neg (by omega), hs _ e he]
    rfl

/-- The state after the operations of the entry the Scheduler is at, before it moves on (49 R706). -/
def State.performed (s : State) : State := s.entry.ops.foldl State.perform s

theorem State.performed_place (s : State) : s.performed.scanline = s.scanline ∧ s.performed.pos = s.pos ∧
    s.performed.cycleOffset6 = s.cycleOffset6 := s.performAll_place _

/-- The entry of scanline 240 hands a picture over, and no other does (49 R713). -/
theorem State.SchedulerWf.performed_framesDone {s : State} (h : s.SchedulerWf) :
    s.performed.framesDone = s.framesDone + if s.scanline = 240 then 1 else 0 := by
  have he := State.entry_of_getElem? (List.getElem?_eq_getElem h.pos)
  rw [State.performed, State.performAll_framesDone, he, frameDone_count (List.getElem_mem h.pos)]

/-- A state inside the frame that began with `count` frames counted and `done` pictures handed over. -/
structure MidFrame (count done : Nat) (s : State) : Prop where
  inv : s.Inv
  agenda : s.agenda = []
  policy : s.params.illegalPolicy = .reset
  count : s.frameCount = count
  done : s.framesDone = done + if 240 < s.scanline then 1 else 0

/-- The start of the next frame, with one more picture handed over (49 R713, R730). -/
structure FrameEnded (count done : Nat) (t : State) : Prop where
  inv : t.Inv
  scanline : t.scanline = 0
  pos : t.pos = 0
  count : t.frameCount = count + 1
  done : t.framesDone = done + 1

theorem sched_length_le (line : Nat) : (sched line).length ≤ 43 := by
  rw [sched_length]
  split_ifs <;> decide

/-- A bound on the entries left in the frame: no schedule has more than 43 (49 R715). -/
def State.placesLeft (s : State) : Nat := 43 * (262 - s.scanline) - s.pos

/-- How far the CPU has still to go to pass the next entry, in half-dots (49 R706). -/
def State.timeLeft (s : State) : Nat := s.entry.at6 + s.cycleOffset6 + 1 - 6 * s.cycle

theorem MidFrame.noCallHere {count done : Nat} {s : State} (h : MidFrame count done s) : NoCallHere s := .inl h.agenda

theorem MidFrame.taken_eq {count done : Nat} {s : State} (h : MidFrame count done s) : taken s = s := by
  have ha := h.agenda
  cases s
  cases ha
  rfl

/-- AN INSTRUCTION inside a frame stays in the frame, at the same place, and nearer to the next entry. -/
theorem MidFrame.cpu_step {count done : Nat} {s : State} (h : MidFrame count done s) (hd : s.cpuDue = true) :
    ∃ u, step s = .next u ∧ MidFrame count done u ∧ u.placesLeft = s.placesLeft ∧ u.timeLeft < s.timeLeft := by
  obtain ⟨u, hu⟩ := State.cpuStep_completes h.policy
  have hpath := State.cpuStep_path hu
  have hcost := State.cpuStep_cycle hu
  have hdue : 6 * s.cycle ≤ s.entry.at6 + s.cycleOffset6 := of_decide_eq_true hd
  refine ⟨u, (step_cpu h.noCallHere hd).trans (h.taken_eq.symm ▸ hu), ⟨h.inv.cpuPath hpath, ?_, hpath.params ▸ h.policy, ?_, ?_⟩,
    ?_, ?_⟩
  · rw [hpath.frame.core]
    exact h.agenda
  · rw [hpath.frame.core]
    exact h.count
  · rw [hpath.frame.core]
    exact h.done
  · rw [hpath.frame.core]
    rfl
  · have hent : u.entry = s.entry := by rw [hpath.frame.core]; rfl
    have hoff : u.cycleOffset6 = s.cycleOffset6 := by rw [hpath.frame.core]
    unfold State.timeLeft
    rw [hent, hoff]
    omega

/-- After the operations of an entry the picture has been handed over from scanline 240 on (49 R713). -/
theorem MidFrame.performed_outputs {count done : Nat} {s : State} (h : MidFrame count done s) :
    s.performed.agenda = [] ∧ s.performed.frameCount = count ∧
      s.performed.framesDone = done + if 240 ≤ s.scanline then 1 else 0 := by
  obtain ⟨hagenda, hcount⟩ := s.performAll_agenda_frameCount s.entry.ops
  refine ⟨hagenda.trans h.agenda, hcount.trans h.count, ?_⟩
  rw [h.inv.sched.performed_framesDone, h.done]
  split_ifs <;> omega

/-- AN ENTRY inside a frame is followed by the rest of the frame or by the next one (49 R705, R706). -/
theorem MidFrame.entry_step {count done : Nat} {s : State} (h : MidFrame count done s) (hd : s.cpuDue = false) :
    ∃ u, step s = .next u ∧ (FrameEnded count done u ∨ MidFrame count done u ∧ u.placesLeft < s.placesLeft) := by
  have hstep : step s = .next s.ppuStep := (step_ppu h.noCallHere hd).trans (by rw [h.taken_eq])
  obtain ⟨hline, hpos, hoff⟩ := s.performed_place
  obtain ⟨hagenda, hcount, hdone⟩ := h.performed_outputs
  have hmove : s.ppuStep = movedOn s s.performed := State.advance_eq_movedOn hline hpos hoff
  have hinv := h.inv.ppuStep
  have hpolicy : s.ppuStep.params.illegalPolicy = .reset := s.ppuStep_params ▸ h.policy
  obtain ⟨hlt, hplace, -⟩ := h.inv.sched
  have hlen := sched_length_le s.scanline
  refine ⟨_, hstep, ?_⟩
  by_cases hin : s.pos + 1 < (sched s.scanline).length
  · have hne : s.scanline ≠ 240 := fun he => by
      rw [he] at hin
      exact absurd hin (Nat.not_lt.2 (Nat.le_add_left 1 _))
    rw [hmove, movedOn, if_pos hin] at hinv hpolicy ⊢
    refine .inr ⟨⟨hinv, hagenda, hpolicy, hcount, hdone.trans ?_⟩, ?_⟩
    · dsimp only
      rw [hline]
      split_ifs <;> omega
    · unfold State.placesLeft
      dsimp only
      rw [hline]
      omega
  · by_cases hlast : s.scanline = 261
    · rw [hmove, movedOn, if_neg hin, if_pos hlast, State.endFrame_eq] at hinv ⊢
      exact .inl ⟨hinv, rfl, rfl, congrArg (· + 1) hcount, hdone.trans (by rw [hlast]; rfl)⟩
    · rw [hmove, movedOn, if_neg hin, if_neg hlast] at hinv hpolicy ⊢
      refine .inr ⟨⟨hinv, hagenda, hpolicy, hcount, hdone.trans ?_⟩, ?_⟩
      · dsimp only
        split_ifs <;> omega
      · unfold State.placesLeft
        dsimp only
        omega

/-- `runFrame` ends, and ends as FrameEnded says (49 R703). -/
def RunsToFrameEnd (count done : Nat) (s : State) : Prop :=
  ∃ fuel t, s.runFrame fuel = some (.next t) ∧ FrameEnded count done t

theorem RunsToFrameEnd.of_ended {count done : Nat} {s t : State} (hs : step s = .next t) (hc : s.frameCount = count)
    (h : FrameEnded count done t) : RunsToFrameEnd count done s := by
  refine ⟨1, t, ?_, h⟩
  rw [State.runFrame, hs]
  exact if_pos (hc ▸ h.count)

theorem RunsToFrameEnd.of_step {count done : Nat} {s t : State} (hs : step s = .next t) (hc : t.frameCount = s.frameCount)
    (h : RunsToFrameEnd count done t) : RunsToFrameEnd count done s := by
  obtain ⟨fuel, u, hu, he⟩ := h
  refine ⟨fuel + 1, u, ?_, he⟩
  rw [State.runFrame, hs]
  exact (if_neg (by omega)).trans hu

/-- EVERY FRAME ENDS: each step inside a frame leaves fewer entries, or as many and less time to the next one. -/
theorem MidFrame.runsToFrameEnd {count done : Nat} (s : State) (h : MidFrame count done s) : RunsToFrameEnd count done s := by
  cases hd : s.cpuDue with
  | false =>
    obtain ⟨u, hs, he | ⟨hu, hplaces⟩⟩ := h.entry_step hd
    · exact .of_ended hs h.count he
    · exact (hu.runsToFrameEnd u).of_step hs (hu.count.trans h.count.symm)
  | true =>
    obtain ⟨u, hs, hu, hplaces, htime⟩ := h.cpu_step hd
    exact (hu.runsToFrameEnd u).of_step hs (hu.count.trans h.count.symm)
termination_by (s.placesLeft, s.timeLeft)
decreasing_by
  · exact .left _ _ hplaces
  · rw [hplaces]
    exact .right _ htime

end Sys2Proof.Machine

namespace Sys2Proof.Proofs

open Sys2Proof.Machine

/-- Settles O60: the start of a frame is a state inside the frame. -/
theorem everyFrameEnds : Obligations.EveryFrameEnds := by
  intro s hinv hline _ ha hq
  have hmid : MidFrame s.frameCount s.framesDone s := ⟨hinv, ha, hq, rfl, by rw [hline]; rfl⟩
  obtain ⟨fuel, t, ht, he⟩ := hmid.runsToFrameEnd
  exact ⟨fuel, t, ht, he.scanline, he.pos, he.count, he.done, he.inv⟩

end Sys2Proof.Proofs
end

section
/-! SUPPORT. Sprite evaluation (48 R672, R673, D29): phase 1 has found the first of the sprites in range, phase 2 looks for the first
byte its stepping of `n` and `m` together reaches. -/

namespace Sys2Proof.Machine

open Sys2Proof.Claims

/-- The sprite height by the bit of `ctrl` (48 R672). -/
theorem Ppu.spriteHeight_eq (p : Ppu) : p.spriteHeight = if p.ctrl.toNat / 32 % 2 = 1 then 16 else 8 := by
  have hbit : p.spr8x16 = decide (p.ctrl.toNat / 32 % 2 = 1) := getLsbD_eq_decide_div p.ctrl 5
  rw [Ppu.spriteHeight, hbit]
  simp only [decide_eq_true_eq]

/-- The in-range test without a subtraction (48 R672). -/
theorem inRange_eq (line h : Nat) (y : Byte) : inRange line h y = decide (y.toNat ≤ line ∧ line < y.toNat + h) := by
  rw [inRange, ← Bool.decide_and]
  exact decide_eq_decide.2 (by omega)

section

variable (oam : Memory) (line h : Nat)

/-- The sprites in range among the first `n` (48 R672). -/
def foundBelow (n : Nat) : List Nat := (List.range n).filter fun m => inRange line h (Table.read oam 0 (4 * m))

theorem foundBelow_sixtyFour : foundBelow oam line h 64 = spritesInRange oam line h := by
  simp only [foundBelow, spritesInRange, inRange_eq]

theorem foundBelow_succ (n : Nat) : foundBelow oam line h (n + 1) =
    foundBelow oam line h n ++ if inRange line h (Table.read oam 0 (4 * n)) then [n] else [] := by
  rw [foundBelow, List.range_succ, List.filter_append, List.filter_singleton, Bool.cond_eq_ite, foundBelow]

/-- What has been found is the beginning of what there is to find. -/
theorem exists_spritesInRange_eq_append {n : Nat} (hn : n ≤ 64) :
    ∃ rest, spritesInRange oam line h = foundBelow oam line h n ++ rest := by
  obtain ⟨k, hk⟩ := Nat.exists_eq_add_of_le hn
  rw [← foundBelow_sixtyFour, hk, foundBelow, List.range_add, List.filter_append]
  exact ⟨_, rfl⟩

/-- Where phase 1 stands: secondary OAM holds exactly the sprites in range among the first `n`, at most 8, and the eighth found was
the last one looked at. -/
structure Evaluated (e : EvalState) : Prop where
  bound : e.n ≤ 64
  atMost : e.secCount ≤ 8
  count : e.secCount = (foundBelow oam line h e.n).length
  bytes : ∀ i j, i < 8 → j < 4 → Table.read e.sec 0xFF#8 (4 * i + j) =
    ((foundBelow oam line h e.n)[i]?).elim 0xFF#8 fun n => Table.read oam 0 (4 * n + j)
  sprite0 : e.sprite0InSec = decide ((foundBelow oam line h e.n).head? = some 0)
  last : e.secCount = 8 → ∃ m, e.n = m + 1 ∧ (foundBelow oam line h e.n)[7]? = some m

/-- Phase 1 starts at sprite 0 with a cleared secondary OAM (48 R671). -/
theorem Evaluated.start : Evaluated oam line h { n := 0, sec := [], secCount := 0, sprite0InSec := false } :=
  ⟨Nat.zero_le _, Nat.zero_le _, rfl, fun _ _ _ _ => rfl, rfl, nofun⟩

end

/-- The four bytes of a copied sprite, and no other, are new (48 R673). -/
theorem read_copySprite (oam : Memory) (n count : Nat) (sec : Table Byte) (i : Nat) {j : Nat} (hj : j < 4) :
    Table.read (copySprite oam n count sec) 0xFF#8 (4 * i + j) =
      if i = count then Table.read oam 0 (4 * n + j) else Table.read sec 0xFF#8 (4 * i + j) := by
  have hlist : List.range 4 = [0, 1, 2, 3] := rfl
  simp only [copySprite, hlist, List.foldl_cons, List.foldl_nil, Table.read_write]
  by_cases hi : i = count
  · subst hi
    interval_cases j <;> simp
  · rw [if_neg (by omega), if_neg (by omega), if_neg (by omega), if_neg (by omega), if_neg hi]

section

variable {oam : Memory} {line h : Nat} {e : EvalState}

/-- A sprite out of range changes nothing but the place (48 R673). -/
theorem Evaluated.miss (he : Evaluated oam line h e) (hn : e.n < 64) (hc : e.secCount < 8)
    (hr : inRange line h (Table.read oam 0 (4 * e.n)) = false) : Evaluated oam line h { e with n := e.n + 1 } := by
  have hfound : foundBelow oam line h (e.n + 1) = foundBelow oam line h e.n := by
    rw [foundBelow_succ, hr, if_neg Bool.false_ne_true, List.append_nil]
  refine ⟨hn, he.atMost, ?_, ?_, ?_, fun h8 => absurd h8 (Nat.ne_of_lt hc)⟩
  · rw [hfound]
    exact he.count
  · rw [hfound]
    exact he.bytes
  · rw [hfound]
    exact he.sprite0

/-- A sprite in range goes to the next secondary entry (48 R673). -/
theorem Evaluated.hit (he : Evaluated oam line h e) (hn : e.n < 64) (hc : e.secCount < 8)
    (hr : inRange line h (Table.read oam 0 (4 * e.n)) = true) :
    Evaluated oam line h { n := e.n + 1, sec := copySprite oam e.n e.secCount e.sec, secCount := e.secCount + 1
                           sprite0InSec := e.sprite0InSec || decide (e.n = 0) } := by
  have hfound : foundBelow oam line h (e.n + 1) = foundBelow oam line h e.n ++ [e.n] := by
    rw [foundBelow_succ, hr, if_pos rfl]
  have hlen := he.count
  refine ⟨hn, hc, ?_, fun i j hi hj => ?_, ?_, fun h8 => ⟨e.n, rfl, ?_⟩⟩
  · rw [hfound, List.length_append, ← hlen, List.length_singleton]
  · rw [hfound, read_copySprite _ _ _ _ _ hj]
    rcases Nat.lt_trichotomy i e.secCount with hlt | rfl | hgt
    · rw [if_neg (by omega), List.getElem?_append_left (by omega), he.bytes i j hi hj]
    · rw [if_pos rfl, hlen, List.getElem?_concat_length]
      rfl
    · rw [if_neg (by omega), he.bytes i j hi hj, List.getElem?_eq_none (by omega),
        List.getElem?_eq_none (by rw [List.length_append, List.length_singleton]; omega)]
  · rw [hfound, he.sprite0, List.head?_append, ← Bool.decide_or]
    refine decide_eq_decide.2 ?_
    cases hf : foundBelow oam line h e.n with
    | nil => simp
    | cons m ms =>
      have hne : e.n ≠ 0 := fun h0 => by rw [h0] at hf; cases hf
      simp [hne]
  · have h7 : 7 = (foundBelow oam line h e.n).length := by rw [← hlen]; exact (Nat.succ.inj h8).symm
    rw [hfound, h7, List.getElem?_concat_length]

/-- PHASE 1 runs until every sprite has been looked at or eight are found (48 R673). -/
theorem Evaluated.evalPhase1 (he : Evaluated oam line h e) (k : Nat) (hk : 64 ≤ e.n + k) :
    Evaluated oam line h (evalPhase1 oam line h k e) ∧
      ((evalPhase1 oam line h k e).n = 64 ∨ (evalPhase1 oam line h k e).secCount = 8) := by
  induction k generalizing e with
  | zero => exact ⟨he, .inl (Nat.le_antisymm he.bound hk)⟩
  | succ k ih =>
    unfold Machine.evalPhase1
    split
    · next hlt =>
      dsimp only
      split
      · next hr => exact ih (he.hit hlt.1 hlt.2 hr) (by dsimp only; omega)
      · next hr => exact ih (he.miss hlt.1 hlt.2 (Bool.not_eq_true _ ▸ hr)) (by dsimp only; omega)
    · next hge =>
      have hn := he.bound
      have hc := he.atMost
      exact ⟨he, by omega⟩

/-- What phase 1 has found at its end: the first eight, or all there are. -/
theorem Evaluated.found_eq_take (he : Evaluated oam line h e) (hend : e.n = 64 ∨ e.secCount = 8) :
    foundBelow oam line h e.n = (spritesInRange oam line h).take 8 := by
  rcases hend with hn | hc
  · have hlen := he.count
    have hmost := he.atMost
    rw [hn, foundBelow_sixtyFour] at hlen ⊢
    rw [List.take_of_length_le (by omega)]
  · obtain ⟨rest, hrest⟩ := exists_spritesInRange_eq_append oam line h he.bound
    rw [hrest, List.take_left' (he.count.symm.trans hc)]

/-- The byte that phase 2 tests at its turn `k` from sprite `n` (48 R673, D29). -/
def overflowHit (oam : Memory) (line h n k : Nat) : Bool := inRange line h (Table.read oam 0 (4 * (n + k) + k % 4))

theorem evalPhase2_of_end {n : Nat} (hn : 64 ≤ n) (turns m : Nat) : evalPhase2 oam line h turns n m = (false, n, m) := by
  cases turns with
  | zero => rfl
  | succ turns => exact if_neg (Nat.not_lt.2 hn)

/-- One turn of phase 2: `n` and `m` step together (48 R673, D29). -/
theorem evalPhase2_turn {n k : Nat} (hn : n + k < 64) (turns : Nat) :
    evalPhase2 oam line h (turns + 1) (n + k) (k % 4) =
      if overflowHit oam line h n k then (true, n + k + 1, k % 4)
      else evalPhase2 oam line h turns (n + (k + 1)) ((k + 1) % 4) := by
  have hm : (k % 4 + 1) % 4 = (k + 1) % 4 := Nat.mod_add_mod ..
  rw [evalPhase2, if_pos hn, hm]
  rfl

/-- PHASE 2 finds the first byte in range of those it steps over (48 R673, D29). -/
theorem evalPhase2_eq {turns n k c : Nat} (hn : n + k + c = 64) (hc : c ≤ turns) :
    evalPhase2 oam line h turns (n + k) (k % 4) = ((List.range' k c).find? (overflowHit oam line h n)).elim
      (false, 64, (k + c) % 4) fun j => (true, n + j + 1, j % 4) := by
  induction c generalizing k turns with
  | zero =>
    rw [evalPhase2_of_end (by omega)]
    exact congrArg (fun n => (false, n, k % 4)) hn
  | succ c ih =>
    obtain ⟨turns, rfl⟩ : ∃ t, turns = t + 1 := ⟨turns - 1, by omega⟩
    rw [evalPhase2_turn (by omega), List.range'_succ, List.find?_cons]
    cases overflowHit oam line h n k with
    | true => rfl
    | false =>
      have hrest := ih (turns := turns) (k := k + 1) (by omega) (by omega)
      rw [Nat.add_right_comm k 1 c] at hrest
      exact hrest

end

/-- SPRITE EVALUATION after the clear, by its two phases (48 R671, R673). -/
theorem State.evaluateSprites_cleared {s : State} (hr : s.ppu.renderingEnabled = true) (line : Nat) :
    ∃ e o, Evaluated s.ppu.oam line s.ppu.spriteHeight e ∧
      foundBelow s.ppu.oam line s.ppu.spriteHeight e.n = (spritesInRange s.ppu.oam line s.ppu.spriteHeight).take 8 ∧
      (e.n = 64 ∨ e.secCount = 8) ∧
      o = evalPhase2 s.ppu.oam line s.ppu.spriteHeight 64 e.n 0 ∧
      s.clearSecondaryOAM.evaluateSprites line = { s with ppu := { s.ppu with
        sec := e.sec, secCount := e.secCount, sprite0InSec := e.sprite0InSec
        spriteOverflow := s.ppu.spriteOverflow || o.1, oamAddr := BitVec.ofNat 8 (4 * o.2.1 + o.2.2) } } := by
  obtain ⟨he, hend⟩ := (Evaluated.start s.ppu.oam line s.ppu.spriteHeight).evalPhase1 64 (Nat.le_refl _)
  exact ⟨_, _, he, he.found_eq_take hend, hend, rfl, if_pos hr⟩

end Sys2Proof.Machine
end

section
/-! Settles O42 and O43. -/

namespace Sys2Proof.Proofs

open Sys2Proof.Machine Sys2Proof.Claims

/-- Settles O42: what phase 1 leaves is the first eight, and phase 2 has no sprite left when there are fewer. -/
theorem secondaryOamHoldsTheFirstEight : Obligations.SecondaryOamHoldsTheFirstEight := by
  intro s line hr
  rw [← Ppu.spriteHeight_eq]
  intro L t
  obtain ⟨e, o, he, hfound, hend, ho, ht⟩ := State.evaluateSprites_cleared hr line
  have htt : t = _ := ht
  rw [htt]
  refine ⟨?count, fun i j hi hj => ?bytes, ?sprite0, fun hlt => ?fewer, rfl⟩
  case count => exact he.count.trans (hfound ▸ List.length_take)
  case bytes =>
    have hb := he.bytes i j hi hj
    rw [hfound, List.getElem?_take_of_lt hi] at hb
    refine hb.trans ?_
    cases L[i]? <;> rfl
  case sprite0 =>
    refine he.sprite0.trans (decide_eq_decide.2 ?_)
    rw [hfound, List.head?_take, if_neg (by decide)]
  case fewer =>
    have hcount : e.secCount = min 8 L.length := he.count.trans (hfound ▸ List.length_take)
    have hn : e.n = 64 := hend.resolve_right (by omega)
    rw [ho, hn, evalPhase2_of_end (Nat.le_refl _)]
    exact ⟨Bool.or_false _, rfl⟩

/-- Settles O43: the eighth sprite found is the one before phase 2 begins. -/
theorem overflowSearchHasTheBug : Obligations.OverflowSearchHasTheBug := by
  intro s line n8 hr
  rw [← Ppu.spriteHeight_eq]
  intro h h8 t hit
  obtain ⟨e, o, he, hfound, hend, ho, ht⟩ := State.evaluateSprites_cleared hr line
  have htt : t = _ := ht
  rw [htt]
  have hn : e.n = n8 + 1 := by
    have hlen : 7 < (spritesInRange s.ppu.oam line h).length := (List.getElem?_eq_some_iff.1 h8).1
    have hcount : e.secCount = 8 := by
      rw [he.count, hfound, List.length_take]
      exact Nat.min_eq_left hlen
    obtain ⟨m, hm, h7⟩ := he.last hcount
    rw [hfound, List.getElem?_take_of_lt (by decide)] at h7
    rw [hm, Option.some.inj (h7.symm.trans h8)]
  have hhit : overflowHit s.ppu.oam line h (n8 + 1) = hit := funext fun k => inRange_eq ..
  have hle := he.bound
  have hphase := evalPhase2_eq (oam := s.ppu.oam) (line := line) (h := h) (turns := 64) (n := n8 + 1) (k := 0)
    (c := 64 - (n8 + 1)) (by omega) (by omega)
  rw [← List.range_eq_range', hhit] at hphase
  rw [ho, hn, hphase]
  cases (List.range (64 - (n8 + 1))).find? hit with
  | some k => exact ⟨Bool.or_true _, rfl⟩
  | none =>
    refine ⟨Bool.or_false _, BitVec.eq_of_toNat_eq ?_⟩
    simp only [Option.elim_none, BitVec.toNat_ofNat]
    omega

end Sys2Proof.Proofs
end

section
/-! SUPPORT. Sprite rows in the words of the statements (48 R674 to R676, D28, D39): the pattern address by plain arithmetic, and a
row drawn into a layer pixel by pixel. -/

namespace Sys2Proof.Machine

open Sys2Proof.Claims

/-- The row above the flip, by the integers' remainder (48 R675, D39): both heights divide 256. -/
theorem emod_spriteHeight (p : Ppu) (line : Nat) (y : Byte) :
    (((line : Int) - (y.toNat : Int)) % (p.spriteHeight : Int)).toNat = (line + 256 - y.toNat) % p.spriteHeight := by
  have hy := y.isLt
  unfold Ppu.spriteHeight
  split <;> omega

theorem spriteRow_lt (p : Ppu) (line : Nat) (y attr : Byte) : spriteRow line p.spriteHeight y attr < p.spriteHeight := by
  have hh : 0 < p.spriteHeight := by unfold Ppu.spriteHeight; split <;> decide
  have hrow := Nat.mod_lt (line + 256 - y.toNat) hh
  unfold spriteRow
  dsimp only
  split <;> omega

/-- The sprites' pattern tables are 0x1000 apart (10 R122). -/
theorem Ppu.sprPatBase_toNat (p : Ppu) : p.sprPatBase.toNat = 0x1000 * (p.ctrl.getLsbD 3).toNat := by
  unfold Ppu.sprPatBase
  cases p.ctrl.getLsbD 3 <;> rfl

/-- The address of a sprite row's low plane from the row (48 R675). -/
theorem spriteAddrNat_eq (p : Ppu) (line : Nat) (y tile attr : Byte) : spriteAddrNat p line y tile attr =
    if p.spr8x16 then 0x1000 * (tile.toNat % 2) + 16 * (tile.toNat / 2 * 2) +
      16 * (spriteRow line p.spriteHeight y attr / 8) + spriteRow line p.spriteHeight y attr % 8
    else 0x1000 * (p.ctrl.getLsbD 3).toNat + 16 * tile.toNat + spriteRow line p.spriteHeight y attr := by
  rw [spriteRow, ← emod_spriteHeight]
  rfl

/-- The pattern address of a row of an 8 by 16 sprite: table, pair of tiles, half and row (48 R675). -/
theorem tallSpriteAddr_toNat (tile : Byte) {row : Nat} (hrow : row < 16) :
    (((tile &&& 1#8).setWidth 14 <<< 12) ||| ((tile &&& 0xFE#8).setWidth 14 <<< 4) ||| ((BitVec.ofNat 14 row &&& 8#14) <<< 1) |||
      (BitVec.ofNat 14 row &&& 7#14)).toNat =
    0x1000 * (tile.toNat % 2) + 16 * (tile.toNat / 2 * 2) + 16 * (row / 8) + row % 8 := by
  have htile := tile.isLt
  have hr : (BitVec.ofNat 14 row).toNat = row := Nat.mod_eq_of_lt (by omega)
  have htable : ((tile &&& 1#8).setWidth 14 <<< 12).toNat = 0x1000 * (tile.toNat % 2) := by
    rw [BitVec.toNat_shiftLeft, toNat_setWidth_and_mask tile 0 1 rfl (by decide), Nat.shiftLeft_eq]
    omega
  have hpair : ((tile &&& 0xFE#8).setWidth 14 <<< 4).toNat = 16 * (tile.toNat / 2 * 2) := by
    rw [BitVec.toNat_shiftLeft, toNat_setWidth_and_mask tile 1 7 rfl (by decide), Nat.shiftLeft_eq]
    omega
  have hhalf : ((BitVec.ofNat 14 row &&& 8#14) <<< 1).toNat = 16 * (row / 8) := by
    rw [BitVec.toNat_shiftLeft, toNat_and_mask _ 3 1 rfl, hr, Nat.shiftLeft_eq]
    omega
  have hlow : (BitVec.ofNat 14 row &&& 7#14).toNat = row % 8 := by
    rw [toNat_and_mask _ 0 3 rfl, hr]
    omega
  have hupper := toNat_or_of_dvd_of_lt 12 (x := (tile &&& 1#8).setWidth 14 <<< 12)
    (y := (tile &&& 0xFE#8).setWidth 14 <<< 4) (by omega) (by omega)
  have hmiddle := toNat_or_of_dvd_of_lt 5 (x := (tile &&& 1#8).setWidth 14 <<< 12 ||| (tile &&& 0xFE#8).setWidth 14 <<< 4)
    (y := (BitVec.ofNat 14 row &&& 8#14) <<< 1) (by omega) (by omega)
  rw [toNat_or_of_dvd_of_lt 4 (by omega) (by omega), hmiddle, hupper, htable, hpair, hhalf, hlow]

/-- The pattern address of a row of an 8 by 8 sprite: table, tile and row (48 R675). -/
theorem shortSpriteAddr_toNat (p : Ppu) (tile : Byte) {row : Nat} (hrow : row < 8) :
    (p.sprPatBase ||| (tile.setWidth 14 <<< 4) ||| BitVec.ofNat 14 row).toNat =
      0x1000 * (p.ctrl.getLsbD 3).toNat + 16 * tile.toNat + row := by
  have htile := tile.isLt
  have hr : (BitVec.ofNat 14 row).toNat = row := Nat.mod_eq_of_lt (by omega)
  have hbase := p.sprPatBase_toNat
  have hshift : (tile.setWidth 14 <<< 4).toNat = 16 * tile.toNat := by
    rw [BitVec.toNat_shiftLeft, BitVec.toNat_setWidth, Nat.shiftLeft_eq]
    omega
  have hupper := toNat_or_of_dvd_of_lt 12 (x := p.sprPatBase) (y := tile.setWidth 14 <<< 4) (by omega) (by omega)
  rw [toNat_or_of_dvd_of_lt 4 (by omega) (by omega), hupper, hbase, hshift, hr]

/-- The address of a sprite row's low plane by plain arithmetic, and its bit 3, clear for the high plane (48 R675). -/
theorem spriteAddr_toNat (p : Ppu) (line : Nat) (y tile attr : Byte) :
    (spriteAddr p line y tile attr).toNat = spriteAddrNat p line y tile attr ∧ spriteAddrNat p line y tile attr / 8 % 2 = 0 := by
  have hrow := spriteRow_lt p line y attr
  rw [spriteAddrNat_eq, spriteAddr]
  by_cases hs : p.spr8x16 = true
  · have hh : p.spriteHeight = 16 := if_pos hs
    rw [if_pos hs, if_pos hs]
    exact ⟨tallSpriteAddr_toNat tile (by omega), by omega⟩
  · have hh : p.spriteHeight = 8 := if_neg hs
    rw [if_neg hs, if_neg hs]
    exact ⟨shortSpriteAddr_toNat p tile (by omega), by omega⟩

/-- The high plane of a pattern is 8 bytes after the low one (47 R645, 48 R675). -/
theorem or_eight_eq {a : PpuAddr} {n : Nat} (ha : a.toNat = n) (hn : n / 8 % 2 = 0) : a ||| 8#14 = BitVec.ofNat 14 (n + 8) := by
  have hclear : a &&& 8#14 = 0#14 := by
    refine BitVec.eq_of_toNat_eq ?_
    rw [toNat_and_mask _ 3 1 rfl, ha, BitVec.toNat_zero]
    omega
  rw [← BitVec.add_eq_or_of_and_eq_zero _ _ hclear, ← ha, BitVec.ofNat_add, BitVec.ofNat_toNat, BitVec.setWidth_eq]

theorem spriteAddr_eq (p : Ppu) (line : Nat) (y tile attr : Byte) :
    spriteAddr p line y tile attr = BitVec.ofNat 14 (spriteAddrNat p line y tile attr) := by
  rw [← (spriteAddr_toNat p line y tile attr).1, BitVec.ofNat_toNat, BitVec.setWidth_eq]

theorem spriteAddr_or_eight_eq (p : Ppu) (line : Nat) (y tile attr : Byte) :
    spriteAddr p line y tile attr ||| 8#14 = BitVec.ofNat 14 (spriteAddrNat p line y tile attr + 8) := by
  obtain ⟨haddr, hbit⟩ := spriteAddr_toNat p line y tile attr
  exact or_eight_eq haddr hbit

/-- A pixel is opaque when its colour number is not 0 (48 R682). -/
theorem opaquePixel_eq (p : Pixel) : opaquePixel p = decide (p.toNat % 4 ≠ 0) := by
  revert p
  decide

theorem opaquePixel_eq_false_iff (p : Pixel) : opaquePixel p = false ↔ p.toNat % 4 = 0 := by
  rw [opaquePixel_eq, decide_eq_false_iff_not, Decidable.not_not]

/-- The colour of pixel `j` of a sprite row, flipped by bit 6 of `attr` (48 R676). -/
def rowColour (attr lo hi : Byte) (j : Nat) : BitVec 2 := planeColour lo hi (if attr.getLsbD 6 then j else 7 - j)

/-- Pixel `j` of a sprite row in a layer: the sub-palette above the colour (48 R676). -/
theorem rowPixel_eq (attr lo hi : Byte) (xpos : Nat) {j : Nat} (hj : j < 8) : rowPixel attr xpos lo hi (xpos + j) =
    if rowColour attr lo hi j ≠ 0#2 ∧ xpos + j ≤ 255 then (attr.setWidth 2 ++ rowColour attr lo hi j).toNat else 0 := by
  have hcolour : (rowColour attr lo hi j).toNat = 2 * bitNat hi (if attr.getLsbD 6 then j else 7 - j) +
      bitNat lo (if attr.getLsbD 6 then j else 7 - j) := planeColour_toNat ..
  have hzero : rowColour attr lo hi j = 0#2 ↔ (rowColour attr lo hi j).toNat = 0 := BitVec.toNat_inj.symm
  have hpal : (attr.setWidth 2).toNat = attr.toNat % 4 := BitVec.toNat_setWidth ..
  simp only [ne_eq, hzero, toNat_append_eq, hpal, hcolour, rowPixel, bitNat, Nat.add_sub_cancel_left]
  split_ifs <;> omega

/-- Draw one pixel of a sprite row, keeping pixels already opaque and cutting at the right edge (48 R676). -/
def drawPixel (attr : Byte) (xpos : Nat) (lo hi : Byte) (t : Table Pixel) (j : Nat) : Table Pixel :=
  if rowColour attr lo hi j ≠ 0#2 ∧ xpos + j ≤ 255 ∧ opaquePixel (Table.read t 0 (xpos + j)) = false then
    Table.write t 0 (xpos + j) (attr.setWidth 2 ++ rowColour attr lo hi j)
  else t

theorem drawRow_eq (layer : Table Pixel) (attr : Byte) (xpos : Nat) (lo hi : Byte) :
    drawRow layer attr xpos lo hi = (List.range 8).foldl (drawPixel attr xpos lo hi) layer := rfl

section

variable (attr lo hi : Byte) (xpos : Nat)

theorem rowPixel_of_lt {px : Nat} (h : px < xpos) : rowPixel attr xpos lo hi px = 0 := if_neg (by omega)

theorem rowPixel_of_ge {px : Nat} (h : xpos + 8 ≤ px) : rowPixel attr xpos lo hi px = 0 := if_neg (by omega)

/-- One pixel drawn: its column takes the row's pixel where it shows one over a pixel that is not opaque (48 R676). -/
theorem pixelNat_drawPixel (t : Table Pixel) {j : Nat} (hj : j < 8) (px : Nat) :
    pixelNat (drawPixel attr xpos lo hi t j) px =
      if px = xpos + j ∧ pixelNat t px % 4 = 0 ∧ rowPixel attr xpos lo hi px ≠ 0 then rowPixel attr xpos lo hi px
      else pixelNat t px := by
  by_cases hpx : px = xpos + j
  · subst hpx
    have hkept := opaquePixel_eq_false_iff (Table.read t 0 (xpos + j))
    rw [rowPixel_eq attr lo hi xpos hj, drawPixel]
    by_cases hd : rowColour attr lo hi j ≠ 0#2 ∧ xpos + j ≤ 255
    · have hne : (attr.setWidth 2 ++ rowColour attr lo hi j).toNat ≠ 0 := by
        have hcolour : (rowColour attr lo hi j).toNat ≠ 0 := fun h => hd.1 (BitVec.eq_of_toNat_eq h)
        rw [toNat_append_eq]
        omega
      rw [if_pos hd]
      by_cases hold : pixelNat t (xpos + j) % 4 = 0
      · rw [if_pos ⟨hd.1, hd.2, hkept.2 hold⟩, if_pos ⟨rfl, hold, hne⟩, pixelNat, Table.read_write_same]
      · rw [if_neg fun h => hold (hkept.1 h.2.2), if_neg fun h => hold h.2.1]
    · rw [if_neg hd, if_neg fun h => hd ⟨h.1, h.2.1⟩, if_neg fun h => h.2.2 rfl]
  · rw [if_neg fun h => hpx h.1, drawPixel]
    split
    · exact congrArg BitVec.toNat (Table.read_write_other _ _ _ (Ne.symm hpx))
    · rfl

/-- The first pixels of a row drawn, one after another (48 R676). -/
theorem pixelNat_drawPixels (layer : Table Pixel) {n : Nat} (hn : n ≤ 8) (px : Nat) :
    pixelNat ((List.range n).foldl (drawPixel attr xpos lo hi) layer) px =
      if px < xpos + n ∧ pixelNat layer px % 4 = 0 ∧ rowPixel attr xpos lo hi px ≠ 0 then rowPixel attr xpos lo hi px
      else pixelNat layer px := by
  induction n with
  | zero => exact (if_neg fun h => h.2.2 (rowPixel_of_lt attr lo hi xpos h.1)).symm
  | succ n ih =>
    rw [List.range_succ, List.foldl_append, List.foldl_cons, List.foldl_nil, pixelNat_drawPixel _ _ _ _ _ hn, ih (by omega)]
    by_cases hpx : px = xpos + n
    · have hlt : px < xpos + (n + 1) := by omega
      rw [if_neg (c := px < xpos + n ∧ _) fun h => absurd hpx (Nat.ne_of_lt h.1)]
      exact if_congr ⟨fun h => ⟨hlt, h.2⟩, fun h => ⟨hpx, h.2⟩⟩ rfl rfl
    · have hiff : px < xpos + (n + 1) ↔ px < xpos + n := by omega
      simp only [hiff, hpx, false_and, if_false]

/-- A ROW DRAWN in the words of the statements (48 R676). -/
theorem drawn_drawRow (layer : Table Pixel) : Drawn layer (drawRow layer attr xpos lo hi) (rowPixel attr xpos lo hi) := by
  intro px
  rw [drawRow_eq, pixelNat_drawPixels attr lo hi xpos layer (Nat.le_refl 8) px]
  refine if_congr ⟨And.right, fun h => ⟨Nat.lt_of_not_le fun hge => h.2 (rowPixel_of_ge attr lo hi xpos hge), h⟩⟩ rfl rfl

end

/-- A SPRITE ROW FETCHED, from its two reads (48 R676). -/
theorem State.fetchSprite_of_used {s : State} {i : Nat} (hr : s.ppu.renderingEnabled = true) (hi : i < s.ppu.secCount)
    (line : Nat) {y tile attr x : Byte} {low high : Byte × State} (hy : Table.read s.ppu.sec 0xFF#8 (4 * i) = y)
    (htile : Table.read s.ppu.sec 0xFF#8 (4 * i + 1) = tile) (hattr : Table.read s.ppu.sec 0xFF#8 (4 * i + 2) = attr)
    (hx : Table.read s.ppu.sec 0xFF#8 (4 * i + 3) = x) (hlow : s.ppuRead (spriteAddr s.ppu line y tile attr) = low)
    (hhigh : low.2.ppuRead (spriteAddr s.ppu line y tile attr ||| 8#14) = high) :
    s.fetchSprite i line =
      if s.ppu.sprite0InSec = true ∧ i = 0 then
        { high.2 with ppu := { s.ppu with layerSpr0 := drawRow s.ppu.layerSpr0 attr x.toNat low.1 high.1 } }
      else if attr.getLsbD 5 then
        { high.2 with ppu := { s.ppu with layerBehind := drawRow s.ppu.layerBehind attr x.toNat low.1 high.1 } }
      else { high.2 with ppu := { s.ppu with layerFront := drawRow s.ppu.layerFront attr x.toNat low.1 high.1 } } := by
  obtain ⟨c, hc, -⟩ : OnlyCart s high.2 := by
    subst hlow hhigh
    exact (s.ppuRead_onlyCart _).trans (State.ppuRead_onlyCart _ _)
  have hppu : high.2.ppu = s.ppu := by rw [hc]
  rw [State.fetchSprite, if_pos ⟨hr, hi⟩]
  simp only [hy, htile, hattr, hx, hlow, hhigh, hppu]

end Sys2Proof.Machine
end

section
/-! Settles O44. -/

namespace Sys2Proof.Proofs

open Sys2Proof.Machine Sys2Proof.Claims

/-- Settles O44: the whole fetch from its two reads, whose addresses and pixels are the formulas of the statement. -/
theorem spriteFetchDrawsOneRow : Obligations.SpriteFetchDrawsOneRow := by
  refine ⟨fun s => ⟨fun px => ⟨rfl, rfl, rfl⟩, rfl⟩, fun s i line => ⟨fun hge => ?unused, fun hr hused => ?used⟩⟩
  case unused => exact if_neg fun h => Nat.not_lt.2 hge h.2
  case used =>
    intro y tile attr xpos lo hi row t
    have ht : t = _ := State.fetchSprite_of_used hr hused line (low := lo) (high := hi) rfl rfl rfl rfl
      (congrArg s.ppuRead (spriteAddr_eq s.ppu line y tile attr))
      (congrArg lo.2.ppuRead (spriteAddr_or_eight_eq s.ppu line y tile attr))
    have hbehind : attr.getLsbD 5 = decide (attr.toNat / 32 % 2 = 1) := getLsbD_eq_decide_div attr 5
    rw [ht, hbehind]
    simp only [decide_eq_true_eq]
    split
    · exact ⟨drawn_drawRow _ _ _ _ _, rfl⟩
    · split
      · exact ⟨drawn_drawRow _ _ _ _ _, rfl⟩
      · exact ⟨drawn_drawRow _ _ _ _ _, rfl⟩

end Sys2Proof.Proofs
end

section
/-! SUPPORT. A tile of the picture in the words of the statements (48 R680 to R686): the layers as they are shown, the composed
pixel, and the eight pixels one after another. -/

namespace Sys2Proof.Machine

open Sys2Proof.Claims

section

variable (p : Ppu)

/-- The background as it is shown (48 R681, R684). -/
theorem Ppu.bgPixel_toNat (px : Nat) : (p.bgPixel px (px % 8)).toNat = bgShown p px := by
  unfold Ppu.bgPixel bgShown
  exact apply_ite BitVec.toNat _ _ _

/-- A sprite layer as it is shown (48 R681). -/
theorem Ppu.sprPixel_toNat (layer : Table Pixel) (px : Nat) : (p.sprPixel layer px).toNat = sprShown p layer px := by
  unfold Ppu.sprPixel sprShown
  exact apply_ite BitVec.toNat _ _ _

/-- The colour at a pixel: the front-most opaque layer's (48 R680, R682, R684). -/
def Ppu.colourAt (px : Nat) : Colour :=
  p.composedColour (p.bgPixel px (px % 8)) (p.sprPixel p.layerBehind px) (p.sprPixel p.layerSpr0 px) (p.sprPixel p.layerFront px)

theorem Ppu.colourAt_toNat (px : Nat) : (p.colourAt px).toNat = shownColour p px := by
  unfold Ppu.colourAt Ppu.composedColour shownColour
  simp only [opaquePixel_eq, decide_eq_true_eq, apply_ite BitVec.toNat, p.bgPixel_toNat, p.sprPixel_toNat]

/-- Whether an opaque sprite-0 pixel is shown over an opaque background pixel (48 R686). -/
def Ppu.overlapAt (px : Nat) : Bool :=
  opaquePixel (p.sprPixel p.layerSpr0 px) && opaquePixel (p.bgPixel px (px % 8))

theorem Ppu.overlapAt_iff (px : Nat) :
    p.overlapAt px = true ↔ sprShown p p.layerSpr0 px % 4 ≠ 0 ∧ bgShown p px % 4 ≠ 0 := by
  rw [Ppu.overlapAt, Bool.and_eq_true, opaquePixel_eq, opaquePixel_eq, decide_eq_true_eq, decide_eq_true_eq, p.bgPixel_toNat,
    p.sprPixel_toNat]

/-- The output pixel of a colour by plain arithmetic (48 R683). -/
theorem Ppu.outputPixel_toNat (m : TvMode) (c : Colour) : (p.outputPixel m c).toNat = outputNat m p.mask c.toNat := by
  have hc := c.isLt
  have hgray : (c &&& 0x30#6).toNat = c.toNat / 16 * 16 := by
    rw [toNat_and_mask c 4 2 rfl]
    omega
  unfold Ppu.outputPixel outputNat Ppu.emphB Ppu.emphG Ppu.emphR Ppu.grayscale
  rw [toNat_append_eq, toNat_append_eq, toNat_append_eq, apply_ite BitVec.toNat, hgray]
  simp only [BitVec.toNat_ofBool]
  cases m with
  | ntsc => dsimp only; omega
  | pal => dsimp only; omega

end

/-- A pixel of the picture after a write of one (10 R134). -/
theorem Picture.pixel_setPixel (f : Picture) (line p : Nat) (c : FramePixel) (row px : Nat) :
    (f.setPixel line p c).pixel row px = if row = line ∧ px = p then c else f.pixel row px := by
  unfold Picture.pixel Picture.setPixel
  rw [Table.read_write]
  by_cases hr : line = row
  · rw [if_pos hr, Table.read_write, hr]
    simp only [eq_comm, true_and]
  · rw [if_neg hr, if_neg fun h => hr h.1.symm]

/-- The picture after the first `n` pixels of group `k` (48 R684). -/
theorem Picture.pixel_setPixels (f : Picture) (line k n : Nat) (c : Nat → FramePixel) (row px : Nat) :
    Picture.pixel ((List.range n).foldl (fun f i => Picture.setPixel f line (8 * k + i) (c (8 * k + i))) f) row px =
      if row = line ∧ 8 * k ≤ px ∧ px < 8 * k + n then c px else f.pixel row px := by
  induction n with
  | zero => exact (if_neg (by omega)).symm
  | succ n ih =>
    rw [List.range_succ, List.foldl_append, List.foldl_cons, List.foldl_nil, Picture.pixel_setPixel, ih]
    by_cases hpx : row = line ∧ px = 8 * k + n
    · rw [if_pos hpx, if_pos (by omega), hpx.2]
    · rw [if_neg hpx]
      exact if_congr (by omega) rfl rfl

/-- The output pixel at a pixel of the scanline (48 R684). -/
def State.outputAt (s : State) (px : Nat) : FramePixel := s.ppu.outputPixel s.params.tvMode (s.ppu.colourAt px)

/-- Composing a pixel of a group (48 R684, R686). -/
theorem State.renderPixel_eq (s : State) (line k : Nat) {i : Nat} (hi : i < 8) : s.renderPixel line k i =
    { s with ppu := { s.ppu with
      sprite0Hit := s.ppu.sprite0Hit || s.ppu.overlapAt (8 * k + i)
      frame := s.ppu.frame.setPixel line (8 * k + i) (s.outputAt (8 * k + i)) } } := by
  have hcol : (8 * k + i) % 8 = i := by omega
  unfold State.renderPixel State.outputAt Ppu.overlapAt Ppu.colourAt
  rw [hcol]

/-- Composing the first `n` pixels of a group: no pixel depends on another's (48 R684, R686). -/
theorem State.renderPixels_eq (s : State) (line k : Nat) {n : Nat} (hn : n ≤ 8) :
    (List.range n).foldl (fun s i => s.renderPixel line k i) s = { s with ppu := { s.ppu with
      sprite0Hit := s.ppu.sprite0Hit || (List.range n).any fun i => s.ppu.overlapAt (8 * k + i)
      frame := (List.range n).foldl (fun f i => Picture.setPixel f line (8 * k + i) (s.outputAt (8 * k + i))) s.ppu.frame } } := by
  induction n with
  | zero => simp
  | succ n ih =>
    rw [List.range_succ, List.foldl_append, List.foldl_cons, List.foldl_nil, ih (by omega), State.renderPixel_eq _ _ _ hn,
      List.foldl_append, List.any_append, ← Bool.or_assoc, List.any_cons, List.any_nil, Bool.or_false]
    rfl

end Sys2Proof.Machine
end

section
/-! Settles O45. -/

namespace Sys2Proof.Proofs

open Sys2Proof.Machine Sys2Proof.Claims

/-- Settles O45: the eight pixels of the group, each by the layers shown before the first of them. -/
theorem pictureComposition : Obligations.PictureComposition := by
  intro s line k t
  have ht : t = _ := s.renderPixels_eq line k (Nat.le_refl 8)
  rw [ht]
  refine ⟨fun row px => ?pixel, ?hit, rfl⟩
  case pixel =>
    dsimp only
    rw [Picture.pixel_setPixels, apply_ite BitVec.toNat, State.outputAt, Ppu.outputPixel_toNat, Ppu.colourAt_toNat]
    exact if_congr (by omega) rfl rfl
  case hit =>
    have hgroup : ((List.range 8).any fun i => s.ppu.overlapAt (8 * k + i)) = true ↔
        ∃ px, px / 8 = k ∧ s.ppu.overlapAt px = true := by
      rw [List.any_eq_true]
      constructor
      · rintro ⟨i, hi, ho⟩
        have hlt := List.mem_range.1 hi
        exact ⟨8 * k + i, by omega, ho⟩
      · rintro ⟨px, rfl, ho⟩
        exact ⟨px % 8, List.mem_range.2 (by omega), by rwa [Nat.div_add_mod]⟩
    simp only [Bool.or_eq_true, hgroup, Ppu.overlapAt_iff]

end Sys2Proof.Proofs
end
